-- ==== Sys2Proof/Word.lean ====
section
/-! DEFINITION. The word types of the block: every value of the spec is unsigned (R12), so each is a plain bit vector. -/

namespace Sys2Proof

/-- A byte of the frame or of the packet buffer (R25). -/
abbrev Byte := BitVec 8

/-- A word of the register space, of `rdata` and of the CRC (R29, R99). -/
abbrev Word := BitVec 16

/-- A host request word `q` (R47). -/
abbrev ReqWord := BitVec 32

/-- A word address of the host register space (R29). -/
abbrev Addr := BitVec 12

/-- A line level, or a one-bit field: `true` is 1 and HIGH, `false` is 0 and LOW (R13, R16, R21). -/
abbrev Level := Bool

end Sys2Proof
end

