-- ==== Sys2Proof/Config.lean ====
section
/-! DEFINITION. What an elaboration of the block fixes (R9, R10), the input pins of a tick (R16), and the values the spec
leaves open, as constants without a body. -/

namespace Sys2Proof

/-- The elaboration parameters of R9. They are arguments of the model and not state (R27); no operation writes them. -/
structure Params where
  /-- `BIT_TICKS`: the nominal bit period in ticks (D3). -/
  bitTicks : Nat
  /-- `MIN_TRAIN`: the high-run count that locks (D35). -/
  minTrain : Nat
  /-- `MAX_DATA_LEN`: the longest payload the buffer holds (D16, OPEN). -/
  maxDataLen : Nat
  /-- `LOCK_TIMEOUT`: the most ticks of the lock search; 0 means no limit (D20). -/
  lockTimeout : Nat
  /-- `TICK_US` as a fraction, its numerator (D2); no rule depends on it. -/
  tickUsNum : Nat
  /-- `TICK_US` as a fraction, its denominator (D2). -/
  tickUsDen : Nat
deriving DecidableEq, Repr

/-- The legal ranges of R9. -/
abbrev Params.Legal (p : Params) : Prop :=
  8 ≤ p.bitTicks ∧ p.bitTicks ≤ 32768 ∧ 1 ≤ p.minTrain ∧ p.minTrain ≤ 15 ∧ p.maxDataLen ≤ 255 ∧
    p.lockTimeout ≤ 2 ^ 32 - 1 ∧ 0 < p.tickUsNum ∧ 0 < p.tickUsDen

/-- The value of every input pin in one tick (R16); `clk` is the tick itself. -/
structure Pins where
  /-- `rst`: synchronous reset, active high. -/
  rst : Bool
  /-- `rx`: the line sample of the tick. -/
  rx : Level
  /-- `req_valid`: the host presents a request in this tick. -/
  reqValid : Bool
  /-- `req`: the request word; ignored when `reqValid` is false. -/
  req : ReqWord
deriving DecidableEq, Repr, Inhabited

/-- FREE VALUE (log 3): `MAX_DATA_LEN` is OPEN (D16, X3); any value of its legal range 0 to 255. -/
opaque Config.maxDataLen : BitVec 8

/-- FREE VALUE (log 5): what byte i of the packet buffer holds when nothing has written it (U5, R161). -/
opaque Config.bufAfterReset : Nat → Byte

/-- FREE VALUE (log 1): the input pins of tick n when nothing is lined up for them; `rx` is a free input of every tick
(R27), and so are the host's request and `rst`. -/
opaque Config.freePins : Nat → Pins

/-- The parameters of the reset state: the defaults of R9, with `MAX_DATA_LEN` free (log 3). -/
def Config.params : Params :=
  { bitTicks := 2000, minTrain := 8, maxDataLen := Config.maxDataLen.toNat, lockTimeout := 0,
    tickUsNum := 1, tickUsDen := 1 }

end Sys2Proof
end

