-- ==== Sys2Proof/Syntax.lean ====
section
/-! DEFINITION. The host register operations, one constructor per row of the opcode table (R60). The operands are those the
"Operands" line of each rule names; RSV and the write data of a read are no operands (R47, R61; log 13). -/

namespace Sys2Proof

/-- One host request, decoded. -/
inductive Instr where
  /-- RD_CTRL (R113). -/
  | rdCtrl
  /-- WR_CTRL (R114). -/
  | wrCtrl (wdata : Word)
  /-- RD_STATUS (R115). -/
  | rdStatus
  /-- WR_STATUS (R116). -/
  | wrStatus (wdata : Word)
  /-- RD_COUNT (R117). -/
  | rdCount
  /-- WR_COUNT (R118). -/
  | wrCount (wdata : Word)
  /-- RD_CRC_CALC (R119). -/
  | rdCrcCalc
  /-- WR_CRC_CALC (R120). -/
  | wrCrcCalc (wdata : Word)
  /-- RD_CRC_RX (R121). -/
  | rdCrcRx
  /-- WR_CRC_RX (R122). -/
  | wrCrcRx (wdata : Word)
  /-- RD_SYNC_WORD (R123). -/
  | rdSyncWord
  /-- WR_SYNC_WORD (R124). -/
  | wrSyncWord (wdata : Word)
  /-- RD_CONFIG (R125). -/
  | rdConfig
  /-- WR_CONFIG (R126). -/
  | wrConfig (wdata : Word)
  /-- RD_IDX (R127). -/
  | rdIdx
  /-- WR_IDX (R128). -/
  | wrIdx (wdata : Word)
  /-- RD_LEN (R129). -/
  | rdLen
  /-- WR_LEN (R130). -/
  | wrLen (wdata : Word)
  /-- RD_PARAM (R131). -/
  | rdParam
  /-- WR_PARAM (R132). -/
  | wrParam (wdata : Word)
  /-- RD_CRC_AUX_CLR (R133). -/
  | rdCrcAuxClr
  /-- WR_CRC_AUX_CLR (R134). -/
  | wrCrcAuxClr (wdata : Word)
  /-- RD_CRC_AUX_DATA (R135). -/
  | rdCrcAuxData
  /-- WR_CRC_AUX_DATA (R136). -/
  | wrCrcAuxData (wdata : Word)
  /-- RD_CRC_AUX_RESULT (R137). -/
  | rdCrcAuxResult
  /-- WR_CRC_AUX_RESULT (R138). -/
  | wrCrcAuxResult (wdata : Word)
  /-- RD_BIT_TICKS (R139). -/
  | rdBitTicks
  /-- WR_BIT_TICKS (R140). -/
  | wrBitTicks (wdata : Word)
  /-- RD_BUF (R141). -/
  | rdBuf (i : BitVec 9)
  /-- WR_BUF (R142). -/
  | wrBuf (i : BitVec 9) (wdata : Word)
  /-- RD_UNMAPPED (R143). -/
  | rdUnmapped (addr : Addr)
  /-- WR_UNMAPPED (R144). -/
  | wrUnmapped (addr : Addr) (wdata : Word)
deriving DecidableEq, Repr

/-- The operation's name in the opcode table. -/
def Instr.mnemonic : Instr → String
  | .rdCtrl => "RD_CTRL"
  | .wrCtrl _ => "WR_CTRL"
  | .rdStatus => "RD_STATUS"
  | .wrStatus _ => "WR_STATUS"
  | .rdCount => "RD_COUNT"
  | .wrCount _ => "WR_COUNT"
  | .rdCrcCalc => "RD_CRC_CALC"
  | .wrCrcCalc _ => "WR_CRC_CALC"
  | .rdCrcRx => "RD_CRC_RX"
  | .wrCrcRx _ => "WR_CRC_RX"
  | .rdSyncWord => "RD_SYNC_WORD"
  | .wrSyncWord _ => "WR_SYNC_WORD"
  | .rdConfig => "RD_CONFIG"
  | .wrConfig _ => "WR_CONFIG"
  | .rdIdx => "RD_IDX"
  | .wrIdx _ => "WR_IDX"
  | .rdLen => "RD_LEN"
  | .wrLen _ => "WR_LEN"
  | .rdParam => "RD_PARAM"
  | .wrParam _ => "WR_PARAM"
  | .rdCrcAuxClr => "RD_CRC_AUX_CLR"
  | .wrCrcAuxClr _ => "WR_CRC_AUX_CLR"
  | .rdCrcAuxData => "RD_CRC_AUX_DATA"
  | .wrCrcAuxData _ => "WR_CRC_AUX_DATA"
  | .rdCrcAuxResult => "RD_CRC_AUX_RESULT"
  | .wrCrcAuxResult _ => "WR_CRC_AUX_RESULT"
  | .rdBitTicks => "RD_BIT_TICKS"
  | .wrBitTicks _ => "WR_BIT_TICKS"
  | .rdBuf _ => "RD_BUF"
  | .wrBuf _ _ => "WR_BUF"
  | .rdUnmapped _ => "RD_UNMAPPED"
  | .wrUnmapped _ _ => "WR_UNMAPPED"

/-- WE of the operation's request word (R47): a write. -/
def Instr.isWrite : Instr → Bool
  | .rdCtrl => false
  | .wrCtrl _ => true
  | .rdStatus => false
  | .wrStatus _ => true
  | .rdCount => false
  | .wrCount _ => true
  | .rdCrcCalc => false
  | .wrCrcCalc _ => true
  | .rdCrcRx => false
  | .wrCrcRx _ => true
  | .rdSyncWord => false
  | .wrSyncWord _ => true
  | .rdConfig => false
  | .wrConfig _ => true
  | .rdIdx => false
  | .wrIdx _ => true
  | .rdLen => false
  | .wrLen _ => true
  | .rdParam => false
  | .wrParam _ => true
  | .rdCrcAuxClr => false
  | .wrCrcAuxClr _ => true
  | .rdCrcAuxData => false
  | .wrCrcAuxData _ => true
  | .rdCrcAuxResult => false
  | .wrCrcAuxResult _ => true
  | .rdBitTicks => false
  | .wrBitTicks _ => true
  | .rdBuf _ => false
  | .wrBuf _ _ => true
  | .rdUnmapped _ => false
  | .wrUnmapped _ _ => true

end Sys2Proof
end

