-- ==== Sys2Proof/WellFormed.lean ====
section
/-! DEFINITION. Which decoded requests are well formed. Every operand value is legal (R61) but for the address of the two
unmapped operations, which must be an address that R30 leaves unmapped. -/

namespace Sys2Proof

/-- The word addresses R30 leaves unmapped: 0x00E to 0x1FF and 0x400 to 0xFFF. -/
def Addr.isUnmapped (a : Addr) : Bool :=
  (0x00E ≤ a.toNat && a.toNat ≤ 0x1FF) || (0x400 ≤ a.toNat && a.toNat ≤ 0xFFF)

/-- The check on a decoded request: RD_UNMAPPED and WR_UNMAPPED name an unmapped address (R143, R144). -/
def Instr.wellFormed : Instr → Bool
  | .rdUnmapped a => Addr.isUnmapped a
  | .wrUnmapped a _ => Addr.isUnmapped a
  | .rdCtrl | .rdStatus | .rdCount | .rdCrcCalc | .rdCrcRx | .rdSyncWord | .rdConfig | .rdIdx | .rdLen | .rdParam
  | .rdCrcAuxClr | .rdCrcAuxData | .rdCrcAuxResult | .rdBitTicks => true
  | .wrCtrl _ | .wrStatus _ | .wrCount _ | .wrCrcCalc _ | .wrCrcRx _ | .wrSyncWord _ | .wrConfig _ | .wrIdx _
  | .wrLen _ | .wrParam _ | .wrCrcAuxClr _ | .wrCrcAuxData _ | .wrCrcAuxResult _ | .wrBitTicks _ => true
  | .rdBuf _ | .wrBuf _ _ => true

end Sys2Proof
end

