-- ==== Sys2Proof/Decode.lean ====
section
/-! DEFINITION. Decoding a request word (R47 to R49), total on every 32-bit word; then the opcode table as data, and the
encoder of R66. -/

namespace Sys2Proof

/-! ## The fields of a request word (R47) -/

/-- WE, bit 31. -/
def ReqWord.we (q : ReqWord) : Bool := q.getLsbD 31

/-- RSV, bits 30..28: ignored by the block. -/
def ReqWord.rsv (q : ReqWord) : BitVec 3 := q.extractLsb' 28 3

/-- ADDR, bits 27..16. -/
def ReqWord.addr (q : ReqWord) : Addr := q.extractLsb' 16 12

/-- WDATA, bits 15..0. -/
def ReqWord.wdata (q : ReqWord) : Word := q.extractLsb' 0 16

/-- A request word from its four fields (R47). -/
def ReqWord.ofFields (we : Bool) (rsv : BitVec 3) (addr : Addr) (wdata : Word) : ReqWord :=
  BitVec.ofBool we ++ rsv ++ addr ++ wdata

/-- The buffer window, 0x200 to 0x3FF: `ADDR[11:9] = 001` (R30, R141). -/
def Addr.inBufWindow (a : Addr) : Bool := a.extractLsb' 9 3 == 1

/-- The buffer index of a window address, `ADDR - 0x200` (R48). -/
def Addr.bufIndex (a : Addr) : BitVec 9 := (a - 0x200).setWidth 9

/-! ## The decoder (R49): by WE and ADDR alone -/

/-- The read operation at an address (R49, R60). -/
def decodeRead (a : Addr) : Instr :=
  match a.toNat with
  | 0x000 => .rdCtrl
  | 0x001 => .rdStatus
  | 0x002 => .rdCount
  | 0x003 => .rdCrcCalc
  | 0x004 => .rdCrcRx
  | 0x005 => .rdSyncWord
  | 0x006 => .rdConfig
  | 0x007 => .rdIdx
  | 0x008 => .rdLen
  | 0x009 => .rdParam
  | 0x00A => .rdCrcAuxClr
  | 0x00B => .rdCrcAuxData
  | 0x00C => .rdCrcAuxResult
  | 0x00D => .rdBitTicks
  | _ => if Addr.inBufWindow a then .rdBuf (Addr.bufIndex a) else .rdUnmapped a

/-- The write operation at an address, with its write data (R49, R60). -/
def decodeWrite (a : Addr) (d : Word) : Instr :=
  match a.toNat with
  | 0x000 => .wrCtrl d
  | 0x001 => .wrStatus d
  | 0x002 => .wrCount d
  | 0x003 => .wrCrcCalc d
  | 0x004 => .wrCrcRx d
  | 0x005 => .wrSyncWord d
  | 0x006 => .wrConfig d
  | 0x007 => .wrIdx d
  | 0x008 => .wrLen d
  | 0x009 => .wrParam d
  | 0x00A => .wrCrcAuxClr d
  | 0x00B => .wrCrcAuxData d
  | 0x00C => .wrCrcAuxResult d
  | 0x00D => .wrBitTicks d
  | _ => if Addr.inBufWindow a then .wrBuf (Addr.bufIndex a) d else .wrUnmapped a d

/-- The operation a request word selects (R49). Every word selects one: no word is rejected (R61). -/
def decode (q : ReqWord) : Instr :=
  if ReqWord.we q then decodeWrite (ReqWord.addr q) (ReqWord.wdata q) else decodeRead (ReqWord.addr q)

/-- The decoder on a row's word as the opcode table numbers bits: one 32-bit word, bit 0 least significant, and the bits
above `nbits` zero. A request is one 32-bit word (R47), so a longer row is none of this block's. -/
def decodeTableWord (nbits w : Nat) : Option Instr :=
  if nbits ≤ 32 then some (decode (BitVec.ofNat 32 (w % 2 ^ nbits))) else none

/-! ## The opcode table as data (R49): rows tried in order -/

/-- One row of the opcode table: the word is selected when `q &&& mask = pattern`. -/
structure OpRow where
  /-- The row's mnemonic. -/
  mnemonic : String
  /-- The row's mask. -/
  mask : ReqWord
  /-- The row's match. -/
  pattern : ReqWord
deriving DecidableEq, Repr

/-- Whether a request word matches a row (R49). -/
def OpRow.selects (r : OpRow) (q : ReqWord) : Bool := q &&& r.mask == r.pattern

/-- The rows of registers 0x000 to 0x006. -/
def opRowsLow : List OpRow :=
  [ ⟨"RD_CTRL", 0x8FFF0000, 0x00000000⟩,
    ⟨"WR_CTRL", 0x8FFF0000, 0x80000000⟩,
    ⟨"RD_STATUS", 0x8FFF0000, 0x00010000⟩,
    ⟨"WR_STATUS", 0x8FFF0000, 0x80010000⟩,
    ⟨"RD_COUNT", 0x8FFF0000, 0x00020000⟩,
    ⟨"WR_COUNT", 0x8FFF0000, 0x80020000⟩,
    ⟨"RD_CRC_CALC", 0x8FFF0000, 0x00030000⟩,
    ⟨"WR_CRC_CALC", 0x8FFF0000, 0x80030000⟩,
    ⟨"RD_CRC_RX", 0x8FFF0000, 0x00040000⟩,
    ⟨"WR_CRC_RX", 0x8FFF0000, 0x80040000⟩,
    ⟨"RD_SYNC_WORD", 0x8FFF0000, 0x00050000⟩,
    ⟨"WR_SYNC_WORD", 0x8FFF0000, 0x80050000⟩,
    ⟨"RD_CONFIG", 0x8FFF0000, 0x00060000⟩,
    ⟨"WR_CONFIG", 0x8FFF0000, 0x80060000⟩ ]

/-- The rows of registers 0x007 to 0x00D. -/
def opRowsHigh : List OpRow :=
  [ ⟨"RD_IDX", 0x8FFF0000, 0x00070000⟩,
    ⟨"WR_IDX", 0x8FFF0000, 0x80070000⟩,
    ⟨"RD_LEN", 0x8FFF0000, 0x00080000⟩,
    ⟨"WR_LEN", 0x8FFF0000, 0x80080000⟩,
    ⟨"RD_PARAM", 0x8FFF0000, 0x00090000⟩,
    ⟨"WR_PARAM", 0x8FFF0000, 0x80090000⟩,
    ⟨"RD_CRC_AUX_CLR", 0x8FFF0000, 0x000A0000⟩,
    ⟨"WR_CRC_AUX_CLR", 0x8FFF0000, 0x800A0000⟩,
    ⟨"RD_CRC_AUX_DATA", 0x8FFF0000, 0x000B0000⟩,
    ⟨"WR_CRC_AUX_DATA", 0x8FFF0000, 0x800B0000⟩,
    ⟨"RD_CRC_AUX_RESULT", 0x8FFF0000, 0x000C0000⟩,
    ⟨"WR_CRC_AUX_RESULT", 0x8FFF0000, 0x800C0000⟩,
    ⟨"RD_BIT_TICKS", 0x8FFF0000, 0x000D0000⟩,
    ⟨"WR_BIT_TICKS", 0x8FFF0000, 0x800D0000⟩ ]

/-- The rows of the buffer window, and the two that match what no earlier row did. -/
def opRowsRest : List OpRow :=
  [ ⟨"RD_BUF", 0x8E000000, 0x02000000⟩,
    ⟨"WR_BUF", 0x8E000000, 0x82000000⟩,
    ⟨"RD_UNMAPPED", 0x80000000, 0x00000000⟩,
    ⟨"WR_UNMAPPED", 0x80000000, 0x80000000⟩ ]

/-- The whole table, in decode order (R60). -/
def opcodeTable : List OpRow := opRowsLow ++ opRowsHigh ++ opRowsRest

/-- The first row of the table that a request word matches (R49). -/
def firstRow (q : ReqWord) : Option OpRow := opcodeTable.find? (fun r => r.selects q)

/-! ## The encoder (R66): RSV = 0, and WDATA = 0 in a read -/

/-- The word address an operation is encoded with (R30, R48). -/
def Instr.addr : Instr → Addr
  | .rdCtrl => 0x000
  | .wrCtrl _ => 0x000
  | .rdStatus => 0x001
  | .wrStatus _ => 0x001
  | .rdCount => 0x002
  | .wrCount _ => 0x002
  | .rdCrcCalc => 0x003
  | .wrCrcCalc _ => 0x003
  | .rdCrcRx => 0x004
  | .wrCrcRx _ => 0x004
  | .rdSyncWord => 0x005
  | .wrSyncWord _ => 0x005
  | .rdConfig => 0x006
  | .wrConfig _ => 0x006
  | .rdIdx => 0x007
  | .wrIdx _ => 0x007
  | .rdLen => 0x008
  | .wrLen _ => 0x008
  | .rdParam => 0x009
  | .wrParam _ => 0x009
  | .rdCrcAuxClr => 0x00A
  | .wrCrcAuxClr _ => 0x00A
  | .rdCrcAuxData => 0x00B
  | .wrCrcAuxData _ => 0x00B
  | .rdCrcAuxResult => 0x00C
  | .wrCrcAuxResult _ => 0x00C
  | .rdBitTicks => 0x00D
  | .wrBitTicks _ => 0x00D
  | .rdBuf i => 0x200 + i.setWidth 12
  | .wrBuf i _ => 0x200 + i.setWidth 12
  | .rdUnmapped a => a
  | .wrUnmapped a _ => a

/-- The write data an operation is encoded with: 0 in a read (R66). -/
def Instr.wdata : Instr → Word
  | .rdCtrl => 0
  | .wrCtrl d => d
  | .rdStatus => 0
  | .wrStatus d => d
  | .rdCount => 0
  | .wrCount d => d
  | .rdCrcCalc => 0
  | .wrCrcCalc d => d
  | .rdCrcRx => 0
  | .wrCrcRx d => d
  | .rdSyncWord => 0
  | .wrSyncWord d => d
  | .rdConfig => 0
  | .wrConfig d => d
  | .rdIdx => 0
  | .wrIdx d => d
  | .rdLen => 0
  | .wrLen d => d
  | .rdParam => 0
  | .wrParam d => d
  | .rdCrcAuxClr => 0
  | .wrCrcAuxClr d => d
  | .rdCrcAuxData => 0
  | .wrCrcAuxData d => d
  | .rdCrcAuxResult => 0
  | .wrCrcAuxResult d => d
  | .rdBitTicks => 0
  | .wrBitTicks d => d
  | .rdBuf _ => 0
  | .wrBuf _ d => d
  | .rdUnmapped _ => 0
  | .wrUnmapped _ d => d

/-- The request word of an operation, as the assembler of R66 writes it. -/
def encode (i : Instr) : ReqWord := ReqWord.ofFields i.isWrite 0 i.addr i.wdata

end Sys2Proof
end

