-- ==== Sys2Proof/Machine/State.lean ====
section
/-! DEFINITION. The state of the block, field by field as 10_state.md lists it, grouped as its sections are; the two ways a
step can stop; and the state after reset (R28). -/

namespace Sys2Proof.Machine

/-- The sequencer's state `S.FSM` (R19). -/
inductive Fsm where
  /-- No attempt is running. -/
  | idle
  /-- The sync detector searches for training lock. -/
  | seek
  /-- Lock was declared; the frame reader runs. -/
  | locked
deriving DecidableEq, Repr

/-- The outcome of an attempt, `S.RESULT` (R23, R146). Codes 6 and 7 are never produced (U7) and have no constructor. -/
inductive ResultCode where
  /-- 0: no attempt has finished since reset or the last START. -/
  | none
  /-- 1: a complete frame whose CRC equals its trailer. -/
  | ok
  /-- 2: a complete frame whose CRC differs from its trailer. -/
  | crcMismatch
  /-- 3: bytes 0 and 1 differ from the sync word. -/
  | syncMismatch
  /-- 4: the length byte exceeds `MAX_DATA_LEN`. -/
  | lengthOverflow
  /-- 5: no lock within `LOCK_TIMEOUT` ticks. -/
  | timeout
deriving DecidableEq, Repr

/-- The bit-timing classifier's fields (R20). -/
structure Classifier where
  /-- `HAVE_LVL`: the attempt has taken its first sample. -/
  haveLvl : Bool
  /-- `LVL`: the level of the phase in progress. -/
  lvl : Level
  /-- `PLEN`: its length so far in ticks, saturating. -/
  plen : BitVec 16
  /-- `PVALID`: it began at an edge this attempt observed. -/
  pvalid : Bool
deriving DecidableEq, Repr

/-- The sync detector's fields (R21). -/
structure Detector where
  /-- `EXPECT`: the level of the next phase to count. -/
  expect : Level
  /-- `HRUN`: the run of highs. -/
  hrun : BitVec 4
  /-- `LRUN`: the run of lows. -/
  lrun : BitVec 4
  /-- `WCNT`: the SEEK ticks of the attempt, saturating. -/
  wcnt : BitVec 32
deriving DecidableEq, Repr

/-- The frame reader's fields (R22). -/
structure FrameReader where
  /-- `TMR`: ticks left until the next data sample. -/
  tmr : BitVec 17
  /-- `SHREG`: the byte being assembled. -/
  shreg : Byte
  /-- `BITCNT`: the bits already in it. -/
  bitcnt : BitVec 3
  /-- `IDX`: the frame bytes stored by this attempt. -/
  idx : BitVec 9
  /-- `LEN`: the length byte; 0 until byte 2 completes. -/
  len : Byte
  /-- `CRC`: the running CRC of the inline validator. -/
  crc : Word
deriving DecidableEq, Repr

/-- The result registers (R23). -/
structure ResultRegs where
  /-- `DONE`: an attempt has finished. -/
  done : Bool
  /-- `RESULT`: its outcome. -/
  result : ResultCode
  /-- `COUNT`: the decoded byte count. -/
  count : BitVec 9
  /-- `CRC_CALC`: the CRC computed over the frame. -/
  crcCalc : Word
  /-- `CRC_RX`: the received trailer. -/
  crcRx : Word
deriving DecidableEq, Repr

/-- The packet buffer (R25): the bytes written so far, as (index, byte) pairs with strictly rising indices. An index that is
not listed holds what reset left, which is unspecified. -/
abbrev Memory := List Host.Cell

/-- The whole machine at a tick boundary. -/
structure State where
  /-- The elaboration parameters: arguments of the model (R9, R27; log 3). -/
  params : Params
  /-- `SYNC_WORD` (R17). -/
  syncWord : Word
  /-- `POL` (R18). -/
  pol : Level
  /-- `FSM` (R19). -/
  fsm : Fsm
  /-- The classifier (R20). -/
  cls : Classifier
  /-- The sync detector (R21). -/
  det : Detector
  /-- The frame reader (R22). -/
  fr : FrameReader
  /-- The result registers (R23). -/
  res : ResultRegs
  /-- `AUX` (R24). -/
  aux : Word
  /-- `BUF` (R25). -/
  buf : Memory
  /-- The output port `rdata` as the tick that has just ended drove it (R16; log 7). -/
  rdata : Word
  /-- The input pins lined up for the coming ticks, the head for the coming one (the model's own field; log 1). -/
  inputs : List Pins
  /-- The ticks stepped so far (R14; the model's own field; log 1). -/
  tick : Nat
deriving DecidableEq, Repr

/-- The one way the machine stops on its own. -/
inductive Fault where
  /-- Raised by `bufWrite` when the frame reader would store a byte at an index at or above `CAP`. R13 requires
  `0 ≤ i < CAP` and R32 and R92 say it never happens, so no effect is given. Safe: the machine stops where the spec gives
  nothing; a state that satisfies `State.Inv` never raises it (log 6). -/
  | bufWriteOutsideBuffer
deriving DecidableEq, Repr

/-- The ways a request has no meaning. -/
inductive Refusal where
  /-- Raised by an arm of `exec` whose instruction has no meaning yet. No arm raises it: every operation is modelled.
  Safe. -/
  | notModelled (mnemonic : String)
deriving DecidableEq, Repr

/-- The three outcomes of a step of this machine. -/
abbrev Result := Host.Outcome State Fault Refusal

/-! ## Updates, one field each -/

/-- Set `SYNC_WORD`. -/
def State.withSyncWord (s : State) (v : Word) : State := { s with syncWord := v }
/-- Set `POL`. -/
def State.withPol (s : State) (v : Level) : State := { s with pol := v }
/-- Set `FSM`. -/
def State.withFsm (s : State) (v : Fsm) : State := { s with fsm := v }
/-- Set the classifier's fields. -/
def State.withCls (s : State) (v : Classifier) : State := { s with cls := v }
/-- Set the detector's fields. -/
def State.withDet (s : State) (v : Detector) : State := { s with det := v }
/-- Set the frame reader's fields. -/
def State.withFr (s : State) (v : FrameReader) : State := { s with fr := v }
/-- Set the result registers. -/
def State.withRes (s : State) (v : ResultRegs) : State := { s with res := v }
/-- Set `AUX`. -/
def State.withAux (s : State) (v : Word) : State := { s with aux := v }
/-- Set the packet buffer. -/
def State.withBuf (s : State) (v : Memory) : State := { s with buf := v }
/-- Drive `rdata`. -/
def State.withRdata (s : State) (v : Word) : State := { s with rdata := v }
/-- Set the lined-up input pins. -/
def State.withInputs (s : State) (v : List Pins) : State := { s with inputs := v }

/-! ## Reset values (R28) -/

/-- The classifier after reset and after START (R28, R114). -/
def Classifier.cleared : Classifier := { haveLvl := false, lvl := false, plen := 0, pvalid := false }

/-- The detector after reset and after START (R28, R114). -/
def Detector.cleared : Detector := { expect := true, hrun := 0, lrun := 0, wcnt := 0 }

/-- The frame reader after reset and after START (R28, R114). -/
def FrameReader.cleared : FrameReader := { tmr := 0, shreg := 0, bitcnt := 0, idx := 0, len := 0, crc := 0x0000 }

/-- The result registers after reset and after START (R28, R114). -/
def ResultRegs.cleared : ResultRegs :=
  { done := false, result := .none, count := 0, crcCalc := 0x0000, crcRx := 0x0000 }

/-- The machine right after reset (R28, R161). Nothing is listed in the buffer: every byte is unspecified. -/
def State.reset : State :=
  { params := Config.params, syncWord := 0x5AA5, pol := false, fsm := .idle, cls := .cleared, det := .cleared,
    fr := .cleared, res := .cleared, aux := 0x0000, buf := [], rdata := 0x0000, inputs := [], tick := 0 }

end Sys2Proof.Machine
end

