-- ==== Sys2Proof/Machine/Ops.lean ====
section
/-! DEFINITION. The operations the units and the meanings share: the derived constants, the input pins of the coming tick,
saturation, the packet buffer, ending an attempt (`finish`, the block's trap entry, R149), beginning one (START, R114), and
reset (R160). -/

namespace Sys2Proof

/-! ## Derived constants (R10) -/

/-- `HALF_TICKS` (R10). -/
def Params.halfTicks (p : Params) : Nat := p.bitTicks / 2

/-- `OFFSET_TICKS` (R10). -/
def Params.offsetTicks (p : Params) : Nat := p.bitTicks / 8

/-- `CAP`, the packet buffer's capacity in bytes (R10, R32). -/
def Params.cap (p : Params) : Nat := p.maxDataLen + 5

end Sys2Proof

namespace Sys2Proof.Machine

/-! ## Input pins -/

/-- The input pins of the coming tick: the head of what is lined up, else the free value of that tick (log 1). -/
def State.pins (s : State) : Pins := s.inputs.head?.getD (Config.freePins s.tick)

/-- The line sample `rx` of the coming tick (R13, R16). -/
def State.rx (s : State) : Level := s.pins.rx

/-- Put `p` on the input pins of the coming tick, leaving the later ticks as they are. -/
def State.withPins (s : State) (p : Pins) : State := s.withInputs (p :: s.inputs.tail)

/-- The tick boundary: the pins of the tick are used up and time moves on (R14). -/
def State.advance (s : State) : State := { s with inputs := s.inputs.tail, tick := s.tick + 1 }

/-! ## Outcomes -/

/-- Apply `f` to the next state; a stop stays as it is. -/
def onNext (o : Result) (f : State → State) : Result :=
  match o with
  | .next s => .next (f s)
  | .fault r => .fault r
  | .refused r => .refused r

/-! ## Saturating increment (R12) -/

/-- `sat_w(v + 1)`: one more, held at the greatest value of the width. -/
def satSucc {w : Nat} (v : BitVec w) : BitVec w :=
  if v.toNat + 1 < 2 ^ w then v + 1 else v

/-! ## The packet buffer (R25, R13) -/

/-- The byte listed for index `i`, if something has written it. -/
def Memory.get : Memory → Nat → Option Byte
  | [], _ => none
  | (a, v) :: m, i => if a = i then some v else Memory.get m i

/-- Store `v` at index `i`, keeping the indices strictly rising. -/
def Memory.set : Memory → Nat → Byte → Memory
  | [], i, v => [(i, v)]
  | (a, w) :: m, i, v =>
    if i < a then (i, v) :: (a, w) :: m
    else if i = a then (i, v) :: m
    else (a, w) :: Memory.set m i v

/-- Every listed index lies above `lo` (where `lo` is one), each above the one before. -/
def Memory.risesFrom : Option Nat → Memory → Bool
  | _, [] => true
  | none, (a, _) :: m => Memory.risesFrom (some a) m
  | some lo, (a, _) :: m => decide (lo < a) && Memory.risesFrom (some a) m

/-- The canonical form: strictly rising indices. An unlisted index has no value of its own (log 5), so no entry can equal
it, and equal buffers are equal lists. -/
def Memory.wf (m : Memory) : Bool := Memory.risesFrom none m

/-- `BufRead(i)` (R13): the byte at index `i`; where nothing has written it, the unspecified value reset left (U5). -/
def bufRead (s : State) (i : Nat) : Byte := (Memory.get s.buf i).getD (Config.bufAfterReset i)

/-- `BufWrite(i, v)` (R13), which needs `i < CAP`. -/
def bufWrite (s : State) (i : Nat) (v : Byte) : Result :=
  if i < s.params.cap then .next (s.withBuf (Memory.set s.buf i v)) else .fault .bufWriteOutsideBuffer

/-! ## The end and the beginning of an attempt -/

/-- `finish(code, count)` (R111, R149): record the outcome, raise DONE and return to IDLE; every other field keeps its
value. -/
def finish (code : ResultCode) (count : BitVec 9) (s : State) : State :=
  (s.withFsm .idle).withRes { s.res with done := true, result := code, count := count }

/-- START accepted (R114): clear every attempt field and enter SEEK. BUF, SYNC_WORD, POL and AUX are kept. -/
def beginAttempt (s : State) : State :=
  { s with fsm := .seek, cls := .cleared, det := .cleared, fr := .cleared, res := .cleared }

/-- `reset_state(S)` (R160): every field at its reset value but the packet buffer, which keeps what it held; `rdata` is
0x0000. -/
def resetState (s : State) : State :=
  { s with syncWord := 0x5AA5, pol := false, fsm := .idle, cls := .cleared, det := .cleared, fr := .cleared,
           res := .cleared, aux := 0x0000, rdata := 0x0000 }

end Sys2Proof.Machine
end

