-- ==== Sys2Proof/Machine/Operands.lean ====
section
/-! DEFINITION. The operand forms of the host operations: which bits of the write data each register takes (R48, R50, R54,
R55, R58), and the buffer index of a window access (R59). Every other bit is ignored (R61). -/

namespace Sys2Proof.Machine

/-- CTRL bit 0, START (R50). -/
def startBit (d : Word) : Bool := d.getLsbD 0

/-- CONFIG bit 0, POL (R55). -/
def polBit (d : Word) : Level := d.getLsbD 0

/-- CRC_AUX_CLR bit 0 (R58). -/
def auxClearBit (d : Word) : Bool := d.getLsbD 0

/-- CRC_AUX_DATA bits 7..0, the byte fed to AUX (R58). -/
def auxByte (d : Word) : Byte := d.setWidth 8

/-- What a read of window entry `i` returns (R59, R141): the byte zero-extended below `CAP`, 0x0000 at or above it. -/
def bufEntry (s : State) (i : BitVec 9) : Word :=
  if i.toNat < s.params.cap then (bufRead s i.toNat).setWidth 16 else 0x0000

/-- What a read of PARAM returns (R57, R131). -/
def paramWord (p : Params) : Word := BitVec.ofNat 16 p.maxDataLen ||| (BitVec.ofNat 16 p.minTrain <<< 8)

/-- What a read of BIT_TICKS returns (R57, R139): `BIT_TICKS mod 65536`. -/
def bitTicksWord (p : Params) : Word := BitVec.ofNat 16 p.bitTicks

end Sys2Proof.Machine
end

