-- ==== Sys2Proof/Machine/Classifying.lean ====
section
/-! DEFINITION. The bit-timing classifier (41_bit_timing_classifier.md): it measures each phase of `rx` and classifies it
against the 75% half-bit threshold. -/

namespace Sys2Proof.Machine

/-- The class of a delivered phase (R76). -/
inductive PhaseClass where
  /-- At least 75% of the half-bit. -/
  | valid
  /-- Shorter than that. -/
  | short
deriving DecidableEq, Repr

/-- A phase delivered to the sync detector (R70). -/
structure Phase where
  /-- Its level. -/
  level : Level
  /-- Its duration `d` in ticks. -/
  dur : BitVec 16
  /-- Its class. -/
  cls : PhaseClass
deriving DecidableEq, Repr

/-- CLASSIFY (R74): VALID iff `4·d ≥ 3·HALF_TICKS`, in exact integer arithmetic. -/
def classify (p : Params) (d : BitVec 16) : PhaseClass :=
  if 3 * p.halfTicks ≤ 4 * d.toNat then .valid else .short

/-- CLS_FIRST (R68): the first sample of an attempt begins a partial phase. -/
def clsFirst (rx : Level) : Classifier := { haveLvl := true, lvl := rx, plen := 1, pvalid := false }

/-- CLS_SAME (R69): the phase goes on. -/
def clsSame (c : Classifier) : Classifier := { c with plen := satSucc c.plen }

/-- CLS_EDGE (R70): a phase ends and the next begins with this sample. -/
def clsEdge (rx : Level) (c : Classifier) : Classifier := { c with lvl := rx, plen := 1, pvalid := true }

/-- The phase CLS_EDGE delivers (R70): none where the phase that ended was partial (R71). -/
def deliveredPhase (p : Params) (c : Classifier) : Option Phase :=
  if c.pvalid then some { level := c.lvl, dur := c.plen, cls := classify p c.plen } else none

end Sys2Proof.Machine
end

