-- ==== Sys2Proof/Machine/Detecting.lean ====
section
/-! DEFINITION. The sync detector (42_sync_detector.md): the run counters, the lock test, LOCK and the optional timeout. -/

namespace Sys2Proof.Machine

/-- DET_SHORT (R80): a short phase resets the run. -/
def detShort (d : Detector) : Detector := { d with hrun := 0, lrun := 0, expect := true }

/-- DET_HIGH's counting (R81): `HRUN <- sat_4(HRUN + 1)`, `EXPECT <- LOW`. -/
def detHigh (d : Detector) : Detector := { d with hrun := satSucc d.hrun, expect := false }

/-- DET_LOW (R82): `LRUN <- sat_4(LRUN + 1)`, `EXPECT <- HIGH`. -/
def detLow (d : Detector) : Detector := { d with lrun := satSucc d.lrun, expect := true }

/-- The lock test of DET_HIGH (R81): `h ≥ MIN_TRAIN` and `LRUN = h - 1` for the new count h, which is at least 1. -/
def lockTest (p : Params) (d : Detector) : Bool :=
  decide (p.minTrain ≤ (satSucc d.hrun).toNat) && decide (d.lrun.toNat + 1 = (satSucc d.hrun).toNat)

/-- LOCK (R84): arm the frame reader. LEN keeps its value. -/
def lock (s : State) : State :=
  (s.withFsm .locked).withFr
    { s.fr with tmr := BitVec.ofNat 17 (s.params.offsetTicks + s.params.bitTicks), shreg := 0, bitcnt := 0, idx := 0,
                crc := 0x0000 }

/-- DET_PHASE (R79 to R83): act on a delivered phase. The detector's fields are read as they stood at the start of the
tick (R13): nothing earlier in the tick writes them. -/
def detPhase (ph : Phase) (s : State) : State :=
  match ph.cls with
  | .short => s.withDet (detShort s.det)
  | .valid =>
    if ph.level = true ∧ s.det.expect = true then
      if lockTest s.params s.det then lock (s.withDet (detHigh s.det)) else s.withDet (detHigh s.det)
    else if ph.level = false ∧ s.det.expect = false then s.withDet (detLow s.det)
    else s

/-- The classifier's part of a SEEK tick, with DET_PHASE on the phase it delivers (R68 to R70, R110). -/
def classifyTick (s : State) : State :=
  if s.cls.haveLvl = false then s.withCls (clsFirst s.rx)
  else if s.rx = s.cls.lvl then s.withCls (clsSame s.cls)
  else
    match deliveredPhase s.params s.cls with
    | some ph => detPhase ph (s.withCls (clsEdge s.rx s.cls))
    | none => s.withCls (clsEdge s.rx s.cls)

/-- The timeout test of R88, on the new SEEK count `w`: a limit is set and reached. -/
def timeoutDue (p : Params) (w : BitVec 32) : Bool := decide (p.lockTimeout ≠ 0) && decide (p.lockTimeout ≤ w.toNat)

/-- TIMEOUT (R88): count the SEEK tick; expire unless LOCK fired in this tick. It runs after the classifier and the
detector of the same tick, which do not write WCNT. -/
def timeoutTick (s : State) : State :=
  let w := satSucc s.det.wcnt
  let t := s.withDet { s.det with wcnt := w }
  if s.fsm ≠ .locked ∧ timeoutDue s.params w = true then finish .timeout 0 t else t

/-- The tick step while SEEK (R110). -/
def seekTick (s : State) : State := timeoutTick (classifyTick s)

end Sys2Proof.Machine
end

