-- ==== Sys2Proof/Machine/Crc.lean ====
section
/-! DEFINITION. The CRC16 validator's function (R99 to R102): polynomial 0x8005, initial value 0x0000, input and output
reflected, final XOR 0xFFFF. -/

namespace Sys2Proof.Machine

/-- One round of `crc_update` (R100): shift left, and XOR 0x8005 where bit 15 was set. -/
def crcRound (c : Word) : Word := if c.getLsbD 15 then (c <<< 1) ^^^ 0x8005 else c <<< 1

/-- `n` rounds. -/
def crcRounds : Nat → Word → Word
  | 0, c => c
  | n + 1, c => crcRounds n (crcRound c)

/-- `crc_update(c, b)` (R100): XOR the reflected byte into the top byte, then 8 rounds. -/
def crcUpdate (c : Word) (b : Byte) : Word := crcRounds 8 (c ^^^ (b.reverse.setWidth 16 <<< 8))

/-- `crc_final(c)` (R101): reflect, then XOR 0xFFFF. -/
def crcFinal (c : Word) : Word := c.reverse ^^^ 0xFFFF

/-- The running CRC register after the bytes `bs`, from `c`. -/
def crcFold (c : Word) (bs : List Byte) : Word := bs.foldl crcUpdate c

/-- `crc16(b)` (R102). -/
def crc16 (bs : List Byte) : Word := crcFinal (crcFold 0x0000 bs)

end Sys2Proof.Machine
end

