-- ==== Sys2Proof/Machine/FrameReading.lean ====
section
/-! DEFINITION. The frame reader (43_frame_reader.md): the bit timer, the sampler, byte completion with the inline CRC
(R105), and the gates. Each update writes fields no other of the same tick writes; every field is read as it stood at the
start of the tick (R13, R110). -/

namespace Sys2Proof.Machine

/-- FR_SAMPLE's bit (R91): 1 where the sample equals POL. -/
def sampleBit (s : State) : Bool := s.rx == s.pol

/-- The shift register with one more bit in its low end (R33, R91). -/
def shiftIn (v : Byte) (b : Bool) : Byte := (v <<< 1) ||| (BitVec.ofBool b).setWidth 8

/-- SYNC_GATE (R93): the first two bytes, high byte first, against SYNC_WORD. `s` is the state at the start of the tick,
`t` the state so far. -/
def syncGate (s : State) (v : Byte) (t : State) : State :=
  if bufRead s 0 ++ v ≠ s.syncWord then finish .syncMismatch 0 t else t

/-- LEN_GATE (R94): load the length byte and bound it. -/
def lenGate (s : State) (v : Byte) (t : State) : State :=
  let t' := t.withFr { t.fr with len := v }
  if s.params.maxDataLen < v.toNat then finish .lengthOverflow 0 t' else t'

/-- FRAME_END with INLINE_CHECK (R95, R106): load the two CRC registers and compare them. -/
def frameEnd (s : State) (v : Byte) (t : State) : State :=
  let computed := crcFinal s.fr.crc
  let received := bufRead s (s.fr.len.toNat + 3) ++ v
  let t' := t.withRes { t.res with crcCalc := computed, crcRx := received }
  finish (if computed = received then .ok else .crcMismatch) (s.fr.len.setWidth 9 + 5) t'

/-- The gate that byte index `i` brings (R92): at 1, at 2, and at the frame's last byte, `LEN + 4`. -/
def byteGate (s : State) (i : Nat) (v : Byte) (t : State) : State :=
  if i = 1 then syncGate s v t
  else if i = 2 then lenGate s v t
  else if 3 ≤ i ∧ i = s.fr.len.toNat + 4 then frameEnd s v t
  else t

/-- INLINE_CRC (R105): the running CRC after byte `v` at index `i`; the two trailer bytes are not covered. -/
def inlineCrc (fr : FrameReader) (i : Nat) (v : Byte) : Word :=
  if i ≤ 2 ∨ i ≤ fr.len.toNat + 2 then crcUpdate fr.crc v else fr.crc

/-- FR_BYTE (R92): store the completed byte, update the inline CRC, and run the gate of its index. `s` is the state at the
start of the tick and `t` the state so far. -/
def frByte (s : State) (v : Byte) (t : State) : Result :=
  onNext (bufWrite t s.fr.idx.toNat v) fun u =>
    byteGate s s.fr.idx.toNat v
      (u.withFr { u.fr with idx := s.fr.idx + 1, crc := inlineCrc s.fr s.fr.idx.toNat v })

/-- FR_SAMPLE (R91): decode one bit; the eighth completes a byte. -/
def frSample (s t : State) : Result :=
  let v := shiftIn s.fr.shreg (sampleBit s)
  if s.fr.bitcnt = 7 then frByte s v (t.withFr { t.fr with shreg := v, bitcnt := 0 })
  else .next (t.withFr { t.fr with shreg := v, bitcnt := s.fr.bitcnt + 1 })

/-- FR_WAIT (R90), the tick step while LOCKED: count the bit timer down, and sample when it reaches 0. -/
def lockedTick (s : State) : Result :=
  if s.fr.tmr - 1 = 0 then frSample s (s.withFr { s.fr with tmr := BitVec.ofNat 17 s.params.bitTicks })
  else .next (s.withFr { s.fr with tmr := s.fr.tmr - 1 })

end Sys2Proof.Machine
end

