-- ==== Sys2Proof/Machine/Tick.lean ====
section
/-! DEFINITION. The tick step (R110) and the two shared forms of a host operation over it (R41): a read answers from the
start-of-tick state, then the step runs; the step runs, then a write is applied. -/

namespace Sys2Proof.Machine

/-- The block's own step in one tick with `rst = 0` (R110): nothing while IDLE, the classifier, detector and timeout while
SEEK, the frame reader while LOCKED. -/
def tickStep (s : State) : Result :=
  match s.fsm with
  | .idle => .next s
  | .seek => .next (seekTick s)
  | .locked => lockedTick s

/-- A tick without a request: `rdata` is 0x0000 (R16, R110). -/
def quietTick (s : State) : Result := onNext (tickStep s) fun t => t.withRdata 0x0000

/-- A tick with a read request (R41): `v` was computed from the start-of-tick state. -/
def hostRead (v : Word) (s : State) : Result := onNext (tickStep s) fun t => t.withRdata v

/-- A tick with a write request (R41): `effect` is applied to the state the tick step produced; `rdata` is 0x0000 (R16). -/
def hostWrite (effect : State → State) (s : State) : Result :=
  onNext (tickStep s) fun t => (effect t).withRdata 0x0000

/-- A tick with a write that changes nothing (R38): a read-only register, the BUF window, an unmapped address. -/
def ignoredWrite (s : State) : Result := hostWrite id s

end Sys2Proof.Machine
end

