-- ==== Sys2Proof/Machine/AuxCrc.lean ====
section
/-! DEFINITION. The meanings of the auxiliary CRC port (R107): CRC_AUX_CLR, CRC_AUX_DATA, CRC_AUX_RESULT. All are allowed while
busy; the frame reader's CRC register is another one. -/

namespace Sys2Proof.Machine

/-- RD_CRC_AUX_CLR (R133): returns 0x0000 and clears nothing. -/
def execRdCrcAuxClr (s : State) : Result := hostRead 0x0000 s

/-- WR_CRC_AUX_CLR (R134): bit 0 clears AUX. -/
def execWrCrcAuxClr (d : Word) (s : State) : Result :=
  hostWrite (fun t => if auxClearBit d then t.withAux 0x0000 else t) s

/-- RD_CRC_AUX_DATA (R135): returns 0x0000 and feeds nothing. -/
def execRdCrcAuxData (s : State) : Result := hostRead 0x0000 s

/-- WR_CRC_AUX_DATA (R136): fold the low byte of the write data into AUX. -/
def execWrCrcAuxData (d : Word) (s : State) : Result :=
  hostWrite (fun t => t.withAux (crcUpdate s.aux (auxByte d))) s

/-- RD_CRC_AUX_RESULT (R137): `crc_final(AUX)`; AUX is kept. -/
def execRdCrcAuxResult (s : State) : Result := hostRead (crcFinal s.aux) s

/-- WR_CRC_AUX_RESULT (R138): nothing changes; AUX is not preset. -/
def execWrCrcAuxResult (_ : Word) (s : State) : Result := ignoredWrite s

end Sys2Proof.Machine
end

