-- ==== Sys2Proof/Machine/BufWindow.lean ====
section
/-! DEFINITION. The meanings of the buffer window's operations (R59): RD_BUF, WR_BUF. -/

namespace Sys2Proof.Machine

/-- RD_BUF (R141): byte `i` of the packet buffer, zero-extended; 0x0000 at or above CAP. -/
def execRdBuf (i : BitVec 9) (s : State) : Result := hostRead (bufEntry s i) s

/-- WR_BUF (R142): nothing changes; the host cannot write the buffer. -/
def execWrBuf (_ : BitVec 9) (_ : Word) (s : State) : Result := ignoredWrite s

end Sys2Proof.Machine
end

