-- ==== Sys2Proof/Machine/Configuration.lean ====
section
/-! DEFINITION. The meanings of the configuration registers' operations: SYNC_WORD and CONFIG. -/

namespace Sys2Proof.Machine

/-- RD_SYNC_WORD (R123): SYNC_WORD. -/
def execRdSyncWord (s : State) : Result := hostRead s.syncWord s

/-- WR_SYNC_WORD (R124): all 16 bits while IDLE; ignored while busy. -/
def execWrSyncWord (d : Word) (s : State) : Result :=
  hostWrite (fun t => if s.fsm = .idle then t.withSyncWord d else t) s

/-- RD_CONFIG (R125): `zext_16(POL)`. -/
def execRdConfig (s : State) : Result := hostRead ((BitVec.ofBool s.pol).setWidth 16) s

/-- WR_CONFIG (R126): bit 0 to POL while IDLE; ignored while busy. -/
def execWrConfig (d : Word) (s : State) : Result :=
  hostWrite (fun t => if s.fsm = .idle then t.withPol (polBit d) else t) s

end Sys2Proof.Machine
end

