-- ==== Sys2Proof/Machine/Flags.lean ====
section
/-! DEFINITION. The flags of the block: the STATUS fields (R26, R51) and the two status outputs (R16, R150). Each is a view
of a field, not separate state. -/

namespace Sys2Proof.Machine

/-- The 3-bit code of a result (R146). -/
def ResultCode.code : ResultCode → BitVec 3
  | .none => 0
  | .ok => 1
  | .crcMismatch => 2
  | .syncMismatch => 3
  | .lengthOverflow => 4
  | .timeout => 5

/-- STATUS.BUSY: `FSM ≠ IDLE` (R26, R51). -/
def State.busy (s : State) : Bool := s.fsm != .idle

/-- STATUS.VALID: `RESULT = OK` (R26, R51). -/
def State.valid (s : State) : Bool := s.res.result == .ok

/-- STATUS.STATE: 0 IDLE, 1 SEEK_HIGH, 2 SEEK_LOW, 3 LOCKED (R51). -/
def State.stateField (s : State) : BitVec 2 :=
  match s.fsm with
  | .idle => 0
  | .seek => if s.det.expect then 1 else 2
  | .locked => 3

/-- The STATUS word (R51, R115). -/
def statusWord (s : State) : Word :=
  (s.det.lrun.setWidth 16 <<< 12) ||| (s.det.hrun.setWidth 16 <<< 8) ||| ((BitVec.ofBool s.valid).setWidth 16 <<< 7) |||
    (s.res.result.code.setWidth 16 <<< 4) ||| (s.stateField.setWidth 16 <<< 2) |||
    ((BitVec.ofBool s.res.done).setWidth 16 <<< 1) ||| (BitVec.ofBool s.busy).setWidth 16

/-- The output `done_o` (R16, R150). -/
def State.doneO (s : State) : Bool := s.res.done

/-- The output `busy_o` (R16, R150). -/
def State.busyO (s : State) : Bool := s.busy

end Sys2Proof.Machine
end

