-- ==== Sys2Proof/Machine/Control.lean ====
section
/-! DEFINITION. The meanings of the control and status operations: CTRL, STATUS, PARAM, BIT_TICKS. -/

namespace Sys2Proof.Machine

/-- RD_CTRL (R113): START is a write-only pulse; the read returns 0x0000. -/
def execRdCtrl (s : State) : Result := hostRead 0x0000 s

/-- WR_CTRL (R114): START while IDLE begins an attempt; while busy, in the completing tick too, it is ignored: the busy
test reads the start-of-tick state `s`. -/
def execWrCtrl (d : Word) (s : State) : Result :=
  hostWrite (fun t => if startBit d = true ∧ s.fsm = .idle then beginAttempt t else t) s

/-- RD_STATUS (R115): the STATUS word of the start-of-tick state. -/
def execRdStatus (s : State) : Result := hostRead (statusWord s) s

/-- WR_STATUS (R116): nothing changes; DONE cannot be cleared by a write. -/
def execWrStatus (_ : Word) (s : State) : Result := ignoredWrite s

/-- RD_PARAM (R131): the elaboration parameters. -/
def execRdParam (s : State) : Result := hostRead (paramWord s.params) s

/-- WR_PARAM (R132): nothing changes. -/
def execWrParam (_ : Word) (s : State) : Result := ignoredWrite s

/-- RD_BIT_TICKS (R139): the bit period. -/
def execRdBitTicks (s : State) : Result := hostRead (bitTicksWord s.params) s

/-- WR_BIT_TICKS (R140): nothing changes. -/
def execWrBitTicks (_ : Word) (s : State) : Result := ignoredWrite s

end Sys2Proof.Machine
end

