-- ==== Sys2Proof/Machine/Results.lean ====
section
/-! DEFINITION. The meanings of the result registers' operations: COUNT, CRC_CALC, CRC_RX, IDX, LEN. -/

namespace Sys2Proof.Machine

/-- RD_COUNT (R117): `zext_16(COUNT)`. -/
def execRdCount (s : State) : Result := hostRead (s.res.count.setWidth 16) s

/-- WR_COUNT (R118): nothing changes. -/
def execWrCount (_ : Word) (s : State) : Result := ignoredWrite s

/-- RD_CRC_CALC (R119): CRC_CALC. -/
def execRdCrcCalc (s : State) : Result := hostRead s.res.crcCalc s

/-- WR_CRC_CALC (R120): nothing changes. -/
def execWrCrcCalc (_ : Word) (s : State) : Result := ignoredWrite s

/-- RD_CRC_RX (R121): CRC_RX. -/
def execRdCrcRx (s : State) : Result := hostRead s.res.crcRx s

/-- WR_CRC_RX (R122): nothing changes. -/
def execWrCrcRx (_ : Word) (s : State) : Result := ignoredWrite s

/-- RD_IDX (R127): `zext_16(IDX)`. -/
def execRdIdx (s : State) : Result := hostRead (s.fr.idx.setWidth 16) s

/-- WR_IDX (R128): nothing changes. -/
def execWrIdx (_ : Word) (s : State) : Result := ignoredWrite s

/-- RD_LEN (R129): `zext_16(LEN)`. -/
def execRdLen (s : State) : Result := hostRead (s.fr.len.setWidth 16) s

/-- WR_LEN (R130): nothing changes. -/
def execWrLen (_ : Word) (s : State) : Result := ignoredWrite s

end Sys2Proof.Machine
end

