-- ==== Sys2Proof/Machine/Unmapped.lean ====
section
/-! DEFINITION. The meanings of an access to an unmapped address (R38). -/

namespace Sys2Proof.Machine

/-- RD_UNMAPPED (R143): returns 0x0000; no bus error. -/
def execRdUnmapped (_ : Addr) (s : State) : Result := hostRead 0x0000 s

/-- WR_UNMAPPED (R144): nothing changes. -/
def execWrUnmapped (_ : Addr) (_ : Word) (s : State) : Result := ignoredWrite s

end Sys2Proof.Machine
end

