-- ==== Sys2Proof/Machine/Dispatch.lean ====
section
/-! DEFINITION. One arm per host operation: the tick in which the host presents it (R41, R110). -/

namespace Sys2Proof.Machine

/-- The tick that carries the request `i`, with the line sample the state has for it. -/
def exec (i : Instr) (s : State) : Host.Outcome State Fault Refusal :=
  match i with
  | .rdCtrl => Sys2Proof.Machine.execRdCtrl s
  | .wrCtrl d => Sys2Proof.Machine.execWrCtrl d s
  | .rdStatus => Sys2Proof.Machine.execRdStatus s
  | .wrStatus d => Sys2Proof.Machine.execWrStatus d s
  | .rdCount => Sys2Proof.Machine.execRdCount s
  | .wrCount d => Sys2Proof.Machine.execWrCount d s
  | .rdCrcCalc => Sys2Proof.Machine.execRdCrcCalc s
  | .wrCrcCalc d => Sys2Proof.Machine.execWrCrcCalc d s
  | .rdCrcRx => Sys2Proof.Machine.execRdCrcRx s
  | .wrCrcRx d => Sys2Proof.Machine.execWrCrcRx d s
  | .rdSyncWord => Sys2Proof.Machine.execRdSyncWord s
  | .wrSyncWord d => Sys2Proof.Machine.execWrSyncWord d s
  | .rdConfig => Sys2Proof.Machine.execRdConfig s
  | .wrConfig d => Sys2Proof.Machine.execWrConfig d s
  | .rdIdx => Sys2Proof.Machine.execRdIdx s
  | .wrIdx d => Sys2Proof.Machine.execWrIdx d s
  | .rdLen => Sys2Proof.Machine.execRdLen s
  | .wrLen d => Sys2Proof.Machine.execWrLen d s
  | .rdParam => Sys2Proof.Machine.execRdParam s
  | .wrParam d => Sys2Proof.Machine.execWrParam d s
  | .rdCrcAuxClr => Sys2Proof.Machine.execRdCrcAuxClr s
  | .wrCrcAuxClr d => Sys2Proof.Machine.execWrCrcAuxClr d s
  | .rdCrcAuxData => Sys2Proof.Machine.execRdCrcAuxData s
  | .wrCrcAuxData d => Sys2Proof.Machine.execWrCrcAuxData d s
  | .rdCrcAuxResult => Sys2Proof.Machine.execRdCrcAuxResult s
  | .wrCrcAuxResult d => Sys2Proof.Machine.execWrCrcAuxResult d s
  | .rdBitTicks => Sys2Proof.Machine.execRdBitTicks s
  | .wrBitTicks d => Sys2Proof.Machine.execWrBitTicks d s
  | .rdBuf k => Sys2Proof.Machine.execRdBuf k s
  | .wrBuf k d => Sys2Proof.Machine.execWrBuf k d s
  | .rdUnmapped a => Sys2Proof.Machine.execRdUnmapped a s
  | .wrUnmapped a d => Sys2Proof.Machine.execWrUnmapped a d s

end Sys2Proof.Machine
end

