-- ==== Sys2Proof/Machine/Step.lean ====
section
/-! DEFINITION. One clock tick of the whole block (R110), and the placing of a request on the pins of the coming tick. -/

namespace Sys2Proof.Machine

/-- One tick (R110): reset beats everything; else the tick runs the request on the port, or none. The pins of the tick are
then used up. -/
def step (s : State) : Host.Outcome State Fault Refusal :=
  if s.pins.rst = true then .next (resetState s).advance
  else if s.pins.reqValid = true then onNext (exec (decode s.pins.req) s) State.advance
  else onNext (quietTick s) State.advance

/-- Present the request word on the port in the coming tick, with `rst` low and the line as it was (log 2). -/
def State.withFetchWord (s : State) (nbits w : Nat) : State :=
  s.withPins { rst := false, rx := s.rx, reqValid := true, req := BitVec.ofNat 32 (w % 2 ^ nbits) }

end Sys2Proof.Machine
end

