-- ==== Sys2Proof/Safety.lean ====
section
/-! DEFINITION. The terms of the claims: what a state of a running block satisfies (`State.Inv`), when the buffer has room
for the byte a tick may store, and inputs that hold no reset. -/

namespace Sys2Proof.Machine

/-! ## The packet buffer -/

/-- Every listed index is below `cap` (R32). -/
def Memory.Below (m : Memory) (cap : Nat) : Prop := ∀ c ∈ m, c.1 < cap

/-- Bytes 0 to `n - 1` have been written. -/
def Memory.Stored (m : Memory) (n : Nat) : Prop := ∀ i, i < n → (Memory.get m i).isSome = true

/-- Bytes 0 to `n - 1` of the packet buffer, in order. -/
def State.frameBytes (s : State) (n : Nat) : List Byte := (List.range n).map (bufRead s)

/-- The byte a LOCKED tick may store falls inside the buffer (R13, R32). -/
abbrev State.BufRoom (s : State) : Prop := s.fsm = .locked → s.fr.idx.toNat < s.params.cap

/-- R88's new SEEK count `w` of the coming tick: `sat_32(WCNT + 1)`. -/
def State.searchTicks (s : State) : Nat := min (s.det.wcnt.toNat + 1) (2 ^ 32 - 1)

/-- The coming SEEK tick does not reach the limit of R88. -/
abbrev State.WithinLimit (s : State) : Prop := s.params.lockTimeout = 0 ∨ s.searchTicks < s.params.lockTimeout

/-- What a SEEK tick of `s` leaves, where its classifier and detector leave `t`: `t` itself within the limit, else `t` with the
attempt ended by TIMEOUT, every other field as in `t` (R88, R110, R111). -/
def State.orTimeout (s t : State) : State :=
  if s.WithinLimit then t
  else { t with fsm := .idle, res := { t.res with done := true, result := .timeout, count := 0 } }

/-- The coming tick ends a phase whose start was seen (R70): its level is LVL and its duration PLEN. -/
abbrev State.PhaseEnds (s : State) : Prop :=
  s.fsm = .seek ∧ s.cls.haveLvl = true ∧ s.cls.pvalid = true ∧ s.rx ≠ s.cls.lvl

/-- The phase in progress is at least 75% of the half-bit (R74). -/
abbrev State.PhaseValid (s : State) : Prop := 4 * s.cls.plen.toNat ≥ 3 * (s.params.bitTicks / 2)

/-- The lock test on the run of highs as the coming tick would count it (R81): `h ≥ MIN_TRAIN` and `LRUN = h - 1` for
`h = sat_4(HRUN + 1)`. -/
abbrev State.LockTestPasses (s : State) : Prop :=
  min (s.det.hrun.toNat + 1) 15 ≥ s.params.minTrain ∧ s.det.lrun.toNat = min (s.det.hrun.toNat + 1) 15 - 1

/-- The coming LOCKED tick takes the eighth bit of a byte (R90, R91), and the byte falls inside the buffer. -/
abbrev State.ByteDue (s : State) : Prop :=
  s.fsm = .locked ∧ s.fr.tmr = 1 ∧ s.fr.bitcnt = 7 ∧ s.fr.idx.toNat < s.params.maxDataLen + 5

/-- The shift register after the coming sample (R91): the sample is 1 where `rx` equals POL. -/
def State.sampled (s : State) : Byte := (s.fr.shreg <<< 1) ||| (if s.rx = s.pol then 1 else 0)

/-! ## The codes STATUS shows -/

/-- The code of a result in the table of R146. -/
def ResultCode.number : ResultCode → Nat
  | .none => 0
  | .ok => 1
  | .crcMismatch => 2
  | .syncMismatch => 3
  | .lengthOverflow => 4
  | .timeout => 5

/-- STATUS.STATE in the table of R51. -/
def State.stateNumber (s : State) : Nat :=
  match s.fsm with
  | .idle => 0
  | .seek => if s.det.expect = true then 1 else 2
  | .locked => 3

/-! ## What holds in each state of the sequencer -/

/-- While SEEK (R21, R83, R85, R88, R147): the runs are in step, below `MIN_TRAIN`; a low is expected only in a low phase
whose start was seen; the wait is below its limit; nothing is read or recorded yet. -/
structure State.SeekOk (s : State) : Prop where
  inStep : s.det.expect = true → s.det.lrun = s.det.hrun
  oneAhead : s.det.expect = false →
    s.det.hrun.toNat = s.det.lrun.toNat + 1 ∧ s.cls.haveLvl = true ∧ s.cls.pvalid = true ∧ s.cls.lvl = false
  belowTrain : s.det.hrun.toNat < s.params.minTrain
  belowLimit : s.params.lockTimeout ≠ 0 → s.det.wcnt.toNat < s.params.lockTimeout
  firstSample : s.cls.haveLvl = false → s.cls.pvalid = false
  phaseBegun : s.cls.haveLvl = true → 1 ≤ s.cls.plen.toNat
  nothingRead : s.fr = FrameReader.cleared
  noResult : s.res = ResultRegs.cleared

/-- While LOCKED (R84, R90, R92 to R94, R105, R147): the bit timer runs, the bytes counted are stored, the gates passed held,
and the running CRC is that of the stored bytes but the trailer's. -/
structure State.LockedOk (s : State) : Prop where
  runs : s.det.hrun.toNat = s.params.minTrain ∧ s.det.lrun.toNat + 1 = s.params.minTrain ∧ s.det.expect = false
  timer : 1 ≤ s.fr.tmr.toNat ∧ s.fr.tmr.toNat ≤ s.params.offsetTicks + s.params.bitTicks
  stored : Memory.Stored s.buf s.fr.idx.toNat
  crcOfBytes : s.fr.crc = crcFold 0 (s.frameBytes (min s.fr.idx.toNat (s.fr.len.toNat + 3)))
  syncHeld : 2 ≤ s.fr.idx.toNat → bufRead s 0 ++ bufRead s 1 = s.syncWord
  noLength : s.fr.idx.toNat ≤ 2 → s.fr.len = 0
  lengthHeld : 3 ≤ s.fr.idx.toNat →
    s.fr.len = bufRead s 2 ∧ s.fr.len.toNat ≤ s.params.maxDataLen ∧ s.fr.idx.toNat < s.fr.len.toNat + 5
  noResult : s.res = ResultRegs.cleared

/-- A complete frame was received (R146): COUNT and IDX are its length, the buffer holds it, and the two CRC registers are
those of the buffer's bytes. -/
structure State.FrameHeld (s : State) : Prop where
  count : s.res.count.toNat = s.fr.len.toNat + 5
  idx : s.fr.idx.toNat = s.fr.len.toNat + 5
  bounded : s.fr.len.toNat ≤ s.params.maxDataLen
  lengthByte : s.fr.len = bufRead s 2
  stored : Memory.Stored s.buf (s.fr.len.toNat + 5)
  computed : s.res.crcCalc = crc16 (s.frameBytes (s.fr.len.toNat + 3))
  received : s.res.crcRx = bufRead s (s.fr.len.toNat + 3) ++ bufRead s (s.fr.len.toNat + 4)

/-- An attempt ended without a frame (R146): COUNT and the two CRC registers are 0, IDX is `n`. -/
structure State.Aborted (s : State) (n : Nat) : Prop where
  count : s.res.count = 0
  computed : s.res.crcCalc = 0
  received : s.res.crcRx = 0
  idx : s.fr.idx.toNat = n

/-- While IDLE: what the result code records (the second table of R146; R147). -/
def State.IdleOk (s : State) : Prop :=
  match s.res.result with
  | .none => s.res = ResultRegs.cleared
  | .ok => s.res.done = true ∧ s.FrameHeld ∧ s.res.crcCalc = s.res.crcRx
  | .crcMismatch => s.res.done = true ∧ s.FrameHeld ∧ s.res.crcCalc ≠ s.res.crcRx
  | .syncMismatch => s.res.done = true ∧ s.Aborted 2 ∧ s.fr.len = 0
  | .lengthOverflow => s.res.done = true ∧ s.Aborted 3 ∧ s.fr.len = bufRead s 2 ∧ s.params.maxDataLen < s.fr.len.toNat
  | .timeout => s.res.done = true ∧ s.Aborted 0 ∧ s.fr.len = 0

/-- The invariant of the block, for every legal elaboration (R9). -/
structure State.Inv (s : State) : Prop where
  legal : s.params.Legal
  bufWf : Memory.wf s.buf = true
  bufBelow : Memory.Below s.buf s.params.cap
  idleOk : s.fsm = .idle → s.IdleOk
  seekOk : s.fsm = .seek → s.SeekOk
  lockedOk : s.fsm = .locked → s.LockedOk

/-! ## Inputs of a run -/

/-- The next `n` ticks have their pins lined up, and none asserts `rst`. Requests and the line are free. -/
def State.NoReset (s : State) (n : Nat) : Prop := n ≤ s.inputs.length ∧ ∀ p ∈ s.inputs.take n, p.rst = false

/-- The line sample lined up for the tick `j` ticks from now (0 is the coming tick); low where none is. -/
def State.rxAt (s : State) (j : Nat) : Level := ((s.inputs[j]?).map Pins.rx).getD false

/-- Bit `k` of a frame as it is sent: byte by byte, most significant bit first (R33). -/
def wireBit (frame : List Byte) (k : Nat) : Bool := (frame.getD (k / 8) 0).getLsbD (7 - k % 8)

/-- The line shows frame bit `k` at data sample `k` after lock (R90, R91), for every bit of `frame`: the level POL where
the bit is 1. `s` is the state that LOCK leaves, so sample `k` falls `OFFSET_TICKS + (k + 1) · BIT_TICKS` ticks on. -/
def State.LineSends (s : State) (frame : List Byte) : Prop :=
  ∀ k, k < 8 * frame.length →
    s.rxAt (s.params.offsetTicks + (k + 1) * s.params.bitTicks - 1) = (if wireBit frame k then s.pol else !s.pol)

/-- The state that LOCK leaves (R84): the frame reader armed, nothing read. -/
def State.JustLocked (s : State) : Prop :=
  s.fsm = .locked ∧
    s.fr = { FrameReader.cleared with tmr := BitVec.ofNat 17 (s.params.offsetTicks + s.params.bitTicks) }

/-- Two states that differ at most in buffer bytes the running attempt has not written, and in what the last tick drove on
`rdata` (R161, R168). -/
structure State.SameButStaleBytes (s t : State) : Prop where
  rest : (s.withBuf []).withRdata 0 = (t.withBuf []).withRdata 0
  current : s.fsm = .locked → ∀ i, i < s.fr.idx.toNat → bufRead s i = bufRead t i

end Sys2Proof.Machine
end

