-- ==== Sys2Proof/Certificates/Slice0/Obligations.lean ====
section
/-! DEFINITION. What is stated of the block, for the provers. `R<n>` in a docstring is the rule of spec/ a statement
formalises. -/

open Sys2Proof Sys2Proof.Machine

/-! ## Encoding -/

/-- R47, R49, R66: decoding the request word of a well-formed operation gives that operation, operands and all. -/
def Obligations.DecodeEncodeRoundTrip : Prop :=
  ∀ i : Instr, i.wellFormed = true → decode (encode i) = i

/-- R49, R61, R66: every 32-bit word decodes to a well-formed operation, and encoding it gives the word back but for RSV and,
in a read, WDATA, which the block ignores. -/
def Obligations.EncodeDecodeGivesWordBack : Prop :=
  ∀ q : ReqWord, (decode q).wellFormed = true ∧
    encode (decode q) =
      ReqWord.ofFields (ReqWord.we q) 0 (ReqWord.addr q) (if ReqWord.we q = true then ReqWord.wdata q else 0)

/-- R49: the operation a word selects is the first row of the table that it matches, every word matches one, and WE and ADDR
alone choose it, so that RSV never changes what a word decodes to. -/
def Obligations.DecoderPicksFirstTableRow : Prop :=
  (∀ q : ReqWord, ∃ r, firstRow q = some r ∧ r.mnemonic = (decode q).mnemonic) ∧
    (∀ q q' : ReqWord, ReqWord.we q = ReqWord.we q' → ReqWord.addr q = ReqWord.addr q' →
      (decode q).mnemonic = (decode q').mnemonic) ∧
    (∀ (q : ReqWord) (r : BitVec 3),
      decode (ReqWord.ofFields (ReqWord.we q) r (ReqWord.addr q) (ReqWord.wdata q)) = decode q)

/-- Words of the spec's vectors (V-OP-2, 4, 13, 25, 30, 34, 36) decode to the operations they stand for. -/
def Obligations.SampleWordsDecode : Prop :=
  decode 0x80000001 = .wrCtrl 0x0001 ∧ decode 0x00010000 = .rdStatus ∧ decode 0x80052DD4 = .wrSyncWord 0x2DD4 ∧
    decode 0x800B0045 = .wrCrcAuxData 0x0045 ∧ decode 0x02240000 = .rdBuf 36 ∧ decode 0x0FFF0000 = .rdUnmapped 0xFFF ∧
    decode 0x70010000 = .rdStatus

/-- R61, U8: the write-data bits outside a register's field change nothing. -/
def Obligations.IgnoredWriteDataHasNoEffect : Prop :=
  ∀ (s : State) (d e : Word),
    (d.getLsbD 0 = e.getLsbD 0 →
      exec (.wrCtrl d) s = exec (.wrCtrl e) s ∧ exec (.wrConfig d) s = exec (.wrConfig e) s ∧
        exec (.wrCrcAuxClr d) s = exec (.wrCrcAuxClr e) s) ∧
      ((∀ k, k < 8 → d.getLsbD k = e.getLsbD k) → exec (.wrCrcAuxData d) s = exec (.wrCrcAuxData e) s)

/-! ## The step, reset -/

/-- R110: in a tick without reset the step is the meaning of the request on the port, or a tick without a request. The rest
is the model's choice: a word placed by `withFetchWord` is the request of the next step (log 2), and after every step, a reset
tick among them, the pins of the tick are used up and the tick is counted (`State.advance`; log 1, log 10). -/
def Obligations.StepRunsDecodedRequest : Prop :=
  (∀ (s : State) (i : Instr), s.pins.rst = false → s.pins.reqValid = true → decode s.pins.req = i → i.wellFormed = true →
      step s = onNext (exec i s) State.advance) ∧
    (∀ s : State, s.pins.rst = false → s.pins.reqValid = false → step s = onNext (quietTick s) State.advance) ∧
    (∀ (s : State) (q : ReqWord),
      step (s.withFetchWord 32 q.toNat) = onNext (exec (decode q) (s.withFetchWord 32 q.toNat)) State.advance) ∧
    (∀ s : State, s.pins.rst = true → step s = .next (resetState s).advance) ∧
    (∀ s : State, s.advance = { s with inputs := s.inputs.tail, tick := s.tick + 1 })

/-- R28: what reset leaves in every field; no byte of the packet buffer has been given a value. -/
def Obligations.ResetLeavesEveryField : Prop :=
  State.reset.syncWord = 0x5AA5 ∧ State.reset.pol = false ∧ State.reset.fsm = .idle ∧
    State.reset.cls = { haveLvl := false, lvl := false, plen := 0, pvalid := false } ∧
    State.reset.det = { expect := true, hrun := 0, lrun := 0, wcnt := 0 } ∧
    State.reset.fr = { tmr := 0, shreg := 0, bitcnt := 0, idx := 0, len := 0, crc := 0x0000 } ∧
    State.reset.res = { done := false, result := .none, count := 0, crcCalc := 0x0000, crcRx := 0x0000 } ∧
    State.reset.aux = 0x0000 ∧ ∀ i, Memory.get State.reset.buf i = none

/-- R160: a tick with `rst` high discards its request, its sample and the tick step, drives 0x0000, and sets every field to
its reset value but the packet buffer; a running attempt leaves no result. (What becomes of the model's own fields `inputs` and
`tick` is left to `StepRunsDecodedRequest`.) -/
def Obligations.ResetTickClearsAllButBuffer : Prop :=
  ∀ s : State, s.pins.rst = true →
    ∃ t, step s = .next t ∧
      t = { params := s.params, syncWord := 0x5AA5, pol := false, fsm := .idle,
            cls := { haveLvl := false, lvl := false, plen := 0, pvalid := false },
            det := { expect := true, hrun := 0, lrun := 0, wcnt := 0 },
            fr := { tmr := 0, shreg := 0, bitcnt := 0, idx := 0, len := 0, crc := 0x0000 },
            res := { done := false, result := .none, count := 0, crcCalc := 0x0000, crcRx := 0x0000 },
            aux := 0x0000, buf := s.buf, rdata := 0x0000, inputs := t.inputs, tick := t.tick } ∧
      t.doneO = false ∧ t.busyO = false

/-! ## Host operations: reads. In each, `t` is the state the block's own tick step leaves; the read changes nothing else. -/

/-- R113, R131, R133, R135, R139: CTRL and the two write-only CRC registers read 0x0000; PARAM and BIT_TICKS show the
parameters, and for every legal elaboration the words are exact: `MAX_DATA_LEN` in bits 7..0 and `MIN_TRAIN` above it. -/
def Obligations.ConstantReadsReturnTheirWord : Prop :=
  ∀ s : State, s.BufRoom → ∃ (t : State) (w v : Word), tickStep s = .next t ∧
    exec .rdCtrl s = .next (t.withRdata 0x0000) ∧
    exec .rdCrcAuxClr s = .next (t.withRdata 0x0000) ∧
    exec .rdCrcAuxData s = .next (t.withRdata 0x0000) ∧
    exec .rdParam s = .next (t.withRdata w) ∧
    exec .rdBitTicks s = .next (t.withRdata v) ∧ v.toNat = s.params.bitTicks % 65536 ∧
    (s.params.Legal →
      w = (BitVec.ofNat 16 s.params.maxDataLen ||| (BitVec.ofNat 16 s.params.minTrain <<< 8)) ∧
      w.toNat = s.params.minTrain * 256 + s.params.maxDataLen ∧ v.toNat = s.params.bitTicks)

/-- R117, R119, R121, R127, R129: COUNT, CRC_CALC, CRC_RX, IDX and LEN read their fields as they stood at the start of the
tick; and the corner cases of those rules, in every state of a running block. -/
def Obligations.ResultReadsReturnTheirRegister : Prop :=
  ∀ s : State, s.BufRoom →
    (∃ t, tickStep s = .next t ∧
      exec .rdCount s = .next (t.withRdata (s.res.count.setWidth 16)) ∧
      exec .rdCrcCalc s = .next (t.withRdata s.res.crcCalc) ∧
      exec .rdCrcRx s = .next (t.withRdata s.res.crcRx) ∧
      exec .rdIdx s = .next (t.withRdata (s.fr.idx.setWidth 16)) ∧
      exec .rdLen s = .next (t.withRdata (s.fr.len.setWidth 16))) ∧
    (s.Inv →
      ((s.fsm ≠ .idle ∨ (s.res.result ≠ .ok ∧ s.res.result ≠ .crcMismatch)) →
        s.res.count = 0 ∧ s.res.crcCalc = 0 ∧ s.res.crcRx = 0) ∧
      (s.fsm = .idle → s.res.result = .syncMismatch → s.fr.idx = 2 ∧ s.res.count = 0) ∧
      (s.fsm = .idle → s.res.result = .lengthOverflow → s.fr.idx = 3) ∧
      (s.fsm ≠ .idle → s.fr.idx.toNat ≤ 2 → s.fr.len = 0))

/-- R123, R125: SYNC_WORD and CONFIG read their fields; bits 15..1 of CONFIG read 0. -/
def Obligations.ConfigurationReadsReturnTheirRegister : Prop :=
  ∀ s : State, s.BufRoom → ∃ t, tickStep s = .next t ∧
    exec .rdSyncWord s = .next (t.withRdata s.syncWord) ∧
    exec .rdConfig s = .next (t.withRdata (if s.pol = true then 0x0001 else 0x0000))

/-- R51, R115: the word a read of STATUS returns, field by field, from the state at the start of the tick. -/
def Obligations.StatusReadShowsEveryField : Prop :=
  ∀ s : State, s.BufRoom → ∃ t w, tickStep s = .next t ∧ exec .rdStatus s = .next (t.withRdata w) ∧
    w.toNat =
      s.det.lrun.toNat * 2 ^ 12 + s.det.hrun.toNat * 2 ^ 8 + (if s.res.result = .ok then 1 else 0) * 2 ^ 7 +
        s.res.result.number * 2 ^ 4 + s.stateNumber * 2 ^ 2 +
        (if s.res.done = true then 1 else 0) * 2 + (if s.fsm = .idle then 0 else 1)

/-- R137: CRC_AUX_RESULT reads `crc_final(AUX)`, 0xFFFF after a clear, and keeps AUX. -/
def Obligations.AuxResultReadIsFinalCrc : Prop :=
  ∀ s : State, s.BufRoom → ∃ t, tickStep s = .next t ∧ t.aux = s.aux ∧
    exec .rdCrcAuxResult s = .next (t.withRdata (s.aux.reverse ^^^ 0xFFFF)) ∧
    (s.aux = 0x0000 → exec .rdCrcAuxResult s = .next (t.withRdata 0xFFFF))

/-- R141, R59: a read of the buffer window returns the byte, zero-extended, below `CAP`, and 0x0000 at or above it. -/
def Obligations.BufferReadReturnsByteOrZero : Prop :=
  ∀ (s : State) (i : BitVec 9), s.BufRoom → ∃ t, tickStep s = .next t ∧
    (i.toNat < s.params.maxDataLen + 5 → exec (.rdBuf i) s = .next (t.withRdata ((bufRead s i.toNat).setWidth 16))) ∧
    (s.params.maxDataLen + 5 ≤ i.toNat → exec (.rdBuf i) s = .next (t.withRdata 0x0000))

/-- R38, R143, R144: an unmapped address reads 0x0000 and ignores writes; there is no bus error. -/
def Obligations.UnmappedAccessesReadZeroAndIgnoreWrites : Prop :=
  ∀ (s : State) (a : Addr) (d : Word), s.BufRoom → ∃ t, tickStep s = .next t ∧
    exec (.rdUnmapped a) s = .next (t.withRdata 0x0000) ∧ exec (.wrUnmapped a d) s = .next (t.withRdata 0x0000)

/-- R37: a read changes no state: the tick leaves what a tick without a request leaves, `rdata` apart. -/
def Obligations.ReadsHaveNoSideEffect : Prop :=
  ∀ (i : Instr) (s t : State), i.isWrite = false → exec i s = .next t → quietTick s = .next (t.withRdata 0x0000)

/-! ## Host operations: writes -/

/-- R116, R118, R120, R122, R128, R130, R132, R138, R140, R142: a write to a read-only register or to the buffer window
changes nothing: the tick is a tick without a request. -/
def Obligations.ReadOnlyWritesChangeNothing : Prop :=
  ∀ (s : State) (d : Word) (i : BitVec 9), s.BufRoom → ∃ t, tickStep s = .next t ∧
    quietTick s = .next (t.withRdata 0x0000) ∧
    exec (.wrStatus d) s = .next (t.withRdata 0x0000) ∧ exec (.wrCount d) s = .next (t.withRdata 0x0000) ∧
    exec (.wrCrcCalc d) s = .next (t.withRdata 0x0000) ∧ exec (.wrCrcRx d) s = .next (t.withRdata 0x0000) ∧
    exec (.wrIdx d) s = .next (t.withRdata 0x0000) ∧ exec (.wrLen d) s = .next (t.withRdata 0x0000) ∧
    exec (.wrParam d) s = .next (t.withRdata 0x0000) ∧ exec (.wrCrcAuxResult d) s = .next (t.withRdata 0x0000) ∧
    exec (.wrBitTicks d) s = .next (t.withRdata 0x0000) ∧ exec (.wrBuf i d) s = .next (t.withRdata 0x0000)

/-- R114: START while IDLE clears every attempt field and enters SEEK, keeping BUF, SYNC_WORD, POL and AUX; STATUS then reads
0x0005. With bit 0 clear, or while busy (in the completing tick too), the write changes nothing. -/
def Obligations.StartBeginsAttemptOnlyWhileIdle : Prop :=
  ∀ (s : State) (d : Word),
    (d.getLsbD 0 = true → s.fsm = .idle →
      ∃ t, exec (.wrCtrl d) s = .next t ∧ statusWord t = 0x0005 ∧
        t = { s with
          fsm := .seek
          cls := { haveLvl := false, lvl := false, plen := 0, pvalid := false }
          det := { expect := true, hrun := 0, lrun := 0, wcnt := 0 }
          fr := { tmr := 0, shreg := 0, bitcnt := 0, idx := 0, len := 0, crc := 0x0000 }
          res := { done := false, result := .none, count := 0, crcCalc := 0x0000, crcRx := 0x0000 }
          rdata := 0x0000 }) ∧
      ((d.getLsbD 0 = false ∨ s.fsm ≠ .idle) → s.BufRoom →
        ∃ t, tickStep s = .next t ∧ exec (.wrCtrl d) s = .next (t.withRdata 0x0000))

/-- R124: SYNC_WORD takes all 16 bits while IDLE; while busy the write changes nothing. -/
def Obligations.SyncWordWrittenOnlyWhileIdle : Prop :=
  ∀ (s : State) (d : Word),
    (s.fsm = .idle → exec (.wrSyncWord d) s = .next { s with syncWord := d, rdata := 0x0000 }) ∧
      (s.fsm ≠ .idle → s.BufRoom → ∃ t, tickStep s = .next t ∧ exec (.wrSyncWord d) s = .next (t.withRdata 0x0000))

/-- R126: POL takes bit 0 while IDLE; while busy the write changes nothing. -/
def Obligations.PolarityWrittenOnlyWhileIdle : Prop :=
  ∀ (s : State) (d : Word),
    (s.fsm = .idle → exec (.wrConfig d) s = .next { s with pol := d.getLsbD 0, rdata := 0x0000 }) ∧
      (s.fsm ≠ .idle → s.BufRoom → ∃ t, tickStep s = .next t ∧ exec (.wrConfig d) s = .next (t.withRdata 0x0000))

/-- R134, R136: while busy too, a write to CRC_AUX_CLR with bit 0 set clears AUX, with bit 0 clear changes nothing; a write to
CRC_AUX_DATA folds its low byte into AUX. Nothing else changes, the frame's running CRC least of all. -/
def Obligations.AuxWritesChangeOnlyAux : Prop :=
  ∀ (s : State) (d : Word), s.BufRoom → ∃ t, tickStep s = .next t ∧
    (d.getLsbD 0 = true → exec (.wrCrcAuxClr d) s = .next { t with aux := 0x0000, rdata := 0x0000 }) ∧
    (d.getLsbD 0 = false → exec (.wrCrcAuxClr d) s = .next { t with rdata := 0x0000 }) ∧
    exec (.wrCrcAuxData d) s = .next { t with aux := crcUpdate s.aux (d.extractLsb' 0 8), rdata := 0x0000 }

/-- R38, R60, R142: what a request changes beyond the tick step, which leaves `u`: only START while idle touches the attempt,
only the two configuration writes while idle their register, only the two auxiliary writes AUX; a write drives 0x0000 on
`rdata`; no request touches a byte of the buffer, which changes only where the frame reader stores one. -/
def Obligations.RequestChangesOnlyItsTarget : Prop :=
  ∀ (i : Instr) (s u t : State), tickStep s = .next u → exec i s = .next t →
    t.params = u.params ∧ t.inputs = u.inputs ∧ t.tick = u.tick ∧ (∀ a, bufRead t a = bufRead u a) ∧
      (∀ a, (s.fsm ≠ .locked ∨ a ≠ s.fr.idx.toNat ∨ s.fr.tmr ≠ 1 ∨ s.fr.bitcnt ≠ 7) → bufRead t a = bufRead s a) ∧
      ((∀ d, i = .wrCtrl d → d.getLsbD 0 = false ∨ s.fsm ≠ .idle) →
        t.fsm = u.fsm ∧ t.cls = u.cls ∧ t.det = u.det ∧ t.fr = u.fr ∧ t.res = u.res) ∧
      ((s.fsm ≠ .idle ∨ ∀ d, i ≠ .wrSyncWord d) → t.syncWord = u.syncWord) ∧
      ((s.fsm ≠ .idle ∨ ∀ d, i ≠ .wrConfig d) → t.pol = u.pol) ∧
      ((∀ d, i ≠ .wrCrcAuxClr d) → (∀ d, i ≠ .wrCrcAuxData d) → t.aux = u.aux) ∧
      (i.isWrite = true → t.rdata = 0x0000)

/-! ## The tick step: IDLE, and the classifier while SEEK

In the statements about a SEEK tick `s.orTimeout` is the end of the tick: the state given to it, or, where the tick reaches the
limit of R88, that state with the attempt ended by TIMEOUT and every other field kept (R110, R111). -/

/-- R110, R159: while IDLE the tick step keeps every field, whatever the line shows. -/
def Obligations.IdleTickKeepsEveryField : Prop :=
  ∀ s : State, s.fsm = .idle → tickStep s = .next s ∧ quietTick s = .next { s with rdata := 0x0000 }

/-- R68: the first sample of an attempt begins a partial phase of length 1; no phase is delivered. -/
def Obligations.FirstSampleBeginsPartialPhase : Prop :=
  ∀ s : State, s.fsm = .seek → s.cls.haveLvl = false →
    tickStep s = .next (s.orTimeout { s with
      cls := { haveLvl := true, lvl := s.rx, plen := 1, pvalid := false }
      det := { s.det with wcnt := BitVec.ofNat 32 s.searchTicks } })

/-- R69, R72: a sample of the same level lengthens the phase, up to 65535. -/
def Obligations.SameLevelLengthensPhase : Prop :=
  ∀ s : State, s.fsm = .seek → s.cls.haveLvl = true → s.rx = s.cls.lvl →
    tickStep s = .next (s.orTimeout { s with
      cls := { s.cls with plen := BitVec.ofNat 16 (min (s.cls.plen.toNat + 1) 65535) }
      det := { s.det with wcnt := BitVec.ofNat 32 s.searchTicks } })

/-- R70, R71: the edge that ends the partial first phase begins a known one and delivers nothing. -/
def Obligations.PartialPhaseIsNotDelivered : Prop :=
  ∀ s : State, s.fsm = .seek → s.cls.haveLvl = true → s.cls.pvalid = false → s.rx ≠ s.cls.lvl →
    tickStep s = .next (s.orTimeout { s with
      cls := { haveLvl := true, lvl := s.rx, plen := 1, pvalid := true }
      det := { s.det with wcnt := BitVec.ofNat 32 s.searchTicks } })

/-! ## The sync detector -/

/-- R80: a delivered phase shorter than 75% of the half-bit, of either level, resets both runs and expects a high. -/
def Obligations.ShortPhaseResetsTheRun : Prop :=
  ∀ s : State, s.PhaseEnds → ¬ s.PhaseValid →
    tickStep s = .next (s.orTimeout { s with
      cls := { haveLvl := true, lvl := s.rx, plen := 1, pvalid := true }
      det := { expect := true, hrun := 0, lrun := 0, wcnt := BitVec.ofNat 32 s.searchTicks } })

/-- R81: a valid high phase that was expected is counted, up to 15; the lock test fails here, so the search goes on for a
low. -/
def Obligations.ValidHighIsCounted : Prop :=
  ∀ (s : State) (h : Nat), s.PhaseEnds → s.PhaseValid → s.cls.lvl = true → s.det.expect = true →
    h = min (s.det.hrun.toNat + 1) 15 → ¬ s.LockTestPasses →
    tickStep s = .next (s.orTimeout { s with
      cls := { haveLvl := true, lvl := s.rx, plen := 1, pvalid := true }
      det := { expect := false, hrun := BitVec.ofNat 4 h, lrun := s.det.lrun, wcnt := BitVec.ofNat 32 s.searchTicks } })

/-- R84: a valid high that passes the lock test locks, whether or not the wait reaches its limit in the same tick: the
frame reader is armed, the runs keep their values, which in a running block are `MIN_TRAIN` and `MIN_TRAIN - 1`. -/
def Obligations.LockArmsTheFrameReader : Prop :=
  ∀ (s : State) (h : Nat), s.params.Legal → s.PhaseEnds → s.PhaseValid → s.cls.lvl = true → s.det.expect = true →
    h = min (s.det.hrun.toNat + 1) 15 → h ≥ s.params.minTrain → s.det.lrun.toNat = h - 1 →
    ∃ t, tickStep s = .next t ∧ t.fr.tmr.toNat = s.params.bitTicks / 8 + s.params.bitTicks ∧
      t = { s with
        fsm := .locked
        cls := { haveLvl := true, lvl := s.rx, plen := 1, pvalid := true }
        det := { expect := false, hrun := BitVec.ofNat 4 h, lrun := s.det.lrun, wcnt := BitVec.ofNat 32 s.searchTicks }
        fr := { tmr := t.fr.tmr, shreg := 0, bitcnt := 0, idx := 0, len := s.fr.len, crc := 0x0000 } } ∧
      (s.Inv → t.det.hrun.toNat = s.params.minTrain ∧ t.det.lrun.toNat = s.params.minTrain - 1)

/-- R82: a valid low phase that was expected is counted, up to 15, and the next high is expected; no lock test. -/
def Obligations.ValidLowIsCounted : Prop :=
  ∀ s : State, s.PhaseEnds → s.PhaseValid → s.cls.lvl = false → s.det.expect = false →
    tickStep s = .next (s.orTimeout { s with
      cls := { haveLvl := true, lvl := s.rx, plen := 1, pvalid := true }
      det := { expect := true, hrun := s.det.hrun, lrun := BitVec.ofNat 4 (min (s.det.lrun.toNat + 1) 15)
               wcnt := BitVec.ofNat 32 s.searchTicks } })

/-- R83: a valid phase of the level not expected changes nothing in the detector; in a running block it is a low while a high
is expected (the spec marks this corner case of R83 as derived). -/
def Obligations.UnexpectedPhaseIsIgnored : Prop :=
  ∀ s : State, s.PhaseEnds → s.PhaseValid → s.cls.lvl ≠ s.det.expect →
    tickStep s = .next (s.orTimeout { s with
      cls := { haveLvl := true, lvl := s.rx, plen := 1, pvalid := true }
      det := { s.det with wcnt := BitVec.ofNat 32 s.searchTicks } }) ∧
      (s.Inv → s.cls.lvl = false ∧ s.det.expect = true)

/-- R88: every SEEK tick is counted; one that reaches the limit ends the attempt with TIMEOUT and COUNT 0, unless LOCK fires
in it; one that does not, or that has no limit, records no result. Either way the classifier and the detector have run first:
their fields are those the same tick leaves where there is no limit (R110, R111). -/
def Obligations.TimeoutEndsTheSearch : Prop :=
  ∀ s : State, s.fsm = .seek →
    ∃ t u, tickStep s = .next t ∧ t.det.wcnt.toNat = s.searchTicks ∧
      tickStep { s with params := { s.params with lockTimeout := 0 } } = .next u ∧ t.cls = u.cls ∧ t.det = u.det ∧
      (s.WithinLimit → t.fsm ≠ .idle ∧ t.res = s.res) ∧
      (¬ s.WithinLimit →
        (t.fsm = .locked ∧ t.res = s.res) ∨
          (t.fsm = .idle ∧ t.fr = s.fr ∧ t.res = { s.res with done := true, result := .timeout, count := 0 }))

/-- R88, R174: with a limit T, an attempt that is not reset locks, or ends with TIMEOUT in the tick in which the SEEK count
reaches T; no request of the host changes that. (R174 is marked as derived.) -/
def Obligations.TimeoutBoundsTheWait : Prop :=
  ∀ s : State, s.Inv → s.fsm = .seek → s.params.lockTimeout ≠ 0 →
    s.NoReset (s.params.lockTimeout - s.det.wcnt.toNat) →
    ∃ k t, 1 ≤ k ∧ k ≤ s.params.lockTimeout - s.det.wcnt.toNat ∧ core.run k s = .next t ∧
      (t.fsm = .locked ∨
        (k = s.params.lockTimeout - s.det.wcnt.toNat ∧ t.fsm = .idle ∧ t.res.done = true ∧ t.res.result = .timeout ∧
          t.res.count = 0))

/-- R87: without a limit, only reset ends the search: a step leaves it searching or locked. -/
def Obligations.SearchWithoutLimitGoesOn : Prop :=
  ∀ s : State, s.fsm = .seek → s.params.lockTimeout = 0 → s.pins.rst = false →
    ∃ t, step s = .next t ∧ (t.fsm = .seek ∨ t.fsm = .locked)

/-- R85, R86 (both marked as derived): in a running block a step locks exactly when a valid high ends that brings the run of
highs to `MIN_TRAIN`. -/
def Obligations.LockExactlyAtMinTrain : Prop :=
  ∀ s t : State, s.Inv → s.fsm = .seek → s.pins.rst = false → step s = .next t →
    (t.fsm = .locked ↔
      (s.PhaseEnds ∧ s.PhaseValid ∧ s.cls.lvl = true ∧ s.det.expect = true ∧
        s.det.hrun.toNat + 1 = s.params.minTrain))

/-- R77, R78 (test P5): from a fresh search, phases that alternate from a high on, all valid, leave the detector searching
with `k + 1` highs and `k` lows counted while `k + 1 < MIN_TRAIN`, and lock at the high that makes `MIN_TRAIN`. -/
def Obligations.AlternatingTrainingLocks : Prop :=
  ∀ (s : State) (k : Nat) (durs : Nat → BitVec 16), s.params.Legal → s.fsm = .seek →
    s.det.expect = true → s.det.hrun = 0 → s.det.lrun = 0 →
    ∃ t, ((List.range (2 * k + 1)).map fun j => Phase.mk (j % 2 == 0) (durs j) .valid).foldl
        (fun u ph => detPhase ph u) s = t ∧
      (k + 1 < s.params.minTrain → t.fsm = .seek ∧ t.det.hrun.toNat = k + 1 ∧ t.det.lrun.toNat = k) ∧
      (k + 1 = s.params.minTrain → t.fsm = .locked ∧ t.det.hrun.toNat = k + 1 ∧ t.det.lrun.toNat = k)

/-- The frame of a SEEK tick (R110): parameters, configuration, AUX, every byte of the buffer, the ports and LEN are as
before; the frame reader changes only where the tick locks, the result registers only where it times out. -/
def Obligations.SeekTickFrame : Prop :=
  ∀ s t : State, s.fsm = .seek → tickStep s = .next t →
    t.params = s.params ∧ t.syncWord = s.syncWord ∧ t.pol = s.pol ∧ t.aux = s.aux ∧ (∀ i, bufRead t i = bufRead s i) ∧
      t.rdata = s.rdata ∧ t.inputs = s.inputs ∧ t.tick = s.tick ∧ t.fr.len = s.fr.len ∧
      (t.fsm ≠ .locked → t.fr = s.fr) ∧ (t.fsm ≠ .idle → t.res = s.res)

/-! ## The frame reader -/

/-- R90: until the bit timer runs out, a LOCKED tick only counts it down, whatever the line shows. -/
def Obligations.BitTimerCountsDown : Prop :=
  ∀ s : State, s.fsm = .locked → 2 ≤ s.fr.tmr.toNat →
    tickStep s = .next { s with fr := { s.fr with tmr := BitVec.ofNat 17 (s.fr.tmr.toNat - 1) } }

/-- R90, R91: when the bit timer runs out inside a byte, it is loaded with `BIT_TICKS` and one bit is shifted in: 1 where the
sample equals POL. -/
def Obligations.SampleShiftsOneBitIn : Prop :=
  ∀ s : State, s.fsm = .locked → s.fr.tmr = 1 → s.fr.bitcnt ≠ 7 →
    tickStep s = .next { s with fr := { s.fr with
      tmr := BitVec.ofNat 17 s.params.bitTicks
      shreg := (s.fr.shreg <<< 1) ||| (if s.rx = s.pol then 1 else 0)
      bitcnt := BitVec.ofNat 3 (s.fr.bitcnt.toNat + 1) } }

/-- R92, R105: a completed byte that brings no gate is stored at IDX and counted, and enters the running CRC unless it is the
trailer's first byte; every other byte of the buffer and every other field is as before. -/
def Obligations.CompletedByteIsStored : Prop :=
  ∀ s : State, s.ByteDue → (s.fr.idx = 0 ∨ (3 ≤ s.fr.idx.toNat ∧ s.fr.idx.toNat ≠ s.fr.len.toNat + 4)) →
    ∃ t, tickStep s = .next t ∧ (∀ j, bufRead t j = if j = s.fr.idx.toNat then s.sampled else bufRead s j) ∧
      t = { s with
        buf := t.buf
        fr := { tmr := BitVec.ofNat 17 s.params.bitTicks, shreg := s.sampled, bitcnt := 0, idx := s.fr.idx + 1
                len := s.fr.len
                crc := if s.fr.idx.toNat ≤ 2 ∨ s.fr.idx.toNat ≤ s.fr.len.toNat + 2 then crcUpdate s.fr.crc s.sampled
                       else s.fr.crc } }

/-- R93: when byte 1 completes it is stored and enters the CRC, and the two bytes, high byte first, are compared with
SYNC_WORD: on a mismatch the attempt ends with SYNC_MISMATCH, COUNT 0 and IDX 2. -/
def Obligations.SyncGateChecksTheSyncWord : Prop :=
  ∀ s : State, s.ByteDue → s.fr.idx = 1 →
    ∃ t, tickStep s = .next t ∧ (∀ j, bufRead t j = if j = 1 then s.sampled else bufRead s j) ∧
      t = { s with
        buf := t.buf
        fr := { tmr := BitVec.ofNat 17 s.params.bitTicks, shreg := s.sampled, bitcnt := 0, idx := 2, len := s.fr.len
                crc := crcUpdate s.fr.crc s.sampled }
        fsm := if (bufRead s 0).toNat * 256 + s.sampled.toNat = s.syncWord.toNat then .locked else .idle
        res := if (bufRead s 0).toNat * 256 + s.sampled.toNat = s.syncWord.toNat then s.res
               else { s.res with done := true, result := .syncMismatch, count := 0 } }

/-- R94: when byte 2 completes it is stored, enters the CRC and becomes LEN; above `MAX_DATA_LEN` the attempt ends with
LENGTH_OVERFLOW, COUNT 0 and IDX 3. -/
def Obligations.LengthGateBoundsTheLength : Prop :=
  ∀ s : State, s.ByteDue → s.fr.idx = 2 →
    ∃ t, tickStep s = .next t ∧ (∀ j, bufRead t j = if j = 2 then s.sampled else bufRead s j) ∧
      t = { s with
        buf := t.buf
        fr := { tmr := BitVec.ofNat 17 s.params.bitTicks, shreg := s.sampled, bitcnt := 0, idx := 3, len := s.sampled
                crc := crcUpdate s.fr.crc s.sampled }
        fsm := if s.sampled.toNat ≤ s.params.maxDataLen then .locked else .idle
        res := if s.sampled.toNat ≤ s.params.maxDataLen then s.res
               else { s.res with done := true, result := .lengthOverflow, count := 0 } }

/-- R95, R106: when byte `LEN + 4` completes, the frame is complete: CRC_CALC takes the final CRC, CRC_RX the big-endian
trailer, COUNT `LEN + 5`, and the attempt ends with OK or CRC_MISMATCH as the two agree on all 16 bits. The frame reader keeps
what the last sample left: TMR `BIT_TICKS`, the byte in SHREG, BITCNT 0 (R90, R91). -/
def Obligations.FrameEndComparesTheCrc : Prop :=
  ∀ s : State, s.ByteDue → 3 ≤ s.fr.idx.toNat → s.fr.idx.toNat = s.fr.len.toNat + 4 →
    ∃ t, tickStep s = .next t ∧ (∀ j, bufRead t j = if j = s.fr.len.toNat + 4 then s.sampled else bufRead s j) ∧
      t.fr.idx.toNat = s.fr.len.toNat + 5 ∧ t.res.done = true ∧ t.res.count.toNat = s.fr.len.toNat + 5 ∧
      t.res.crcCalc = (s.fr.crc.reverse ^^^ 0xFFFF) ∧
      t.res.crcRx.toNat = (bufRead s (s.fr.len.toNat + 3)).toNat * 256 + s.sampled.toNat ∧
      t.res.result = (if t.res.crcCalc = t.res.crcRx then .ok else .crcMismatch) ∧
      t = { s with
        buf := t.buf
        fr := { tmr := BitVec.ofNat 17 s.params.bitTicks, shreg := s.sampled, bitcnt := 0, idx := t.fr.idx, len := s.fr.len
                crc := s.fr.crc }
        fsm := .idle
        res := t.res }

/-- R13, R32 (the model's choice, log 6): a completed byte that would fall outside the buffer stops the machine by name,
whatever the host requests. `StepNeverStops` says that a running block never comes to it. -/
def Obligations.ByteOutsideBufferFaults : Prop :=
  ∀ (s : State) (i : Instr), s.fsm = .locked → s.fr.tmr = 1 → s.fr.bitcnt = 7 →
    s.params.maxDataLen + 5 ≤ s.fr.idx.toNat →
    exec i s = .fault .bufWriteOutsideBuffer ∧ quietTick s = .fault .bufWriteOutsideBuffer

/-- The frame of a LOCKED tick (R98, marked as derived, and R110): parameters, configuration, the classifier, the detector, AUX, the ports, and every
byte of the buffer but byte IDX are as before; that byte changes only when the bit timer runs out on an eighth bit. -/
def Obligations.LockedTickFrame : Prop :=
  ∀ s t : State, s.fsm = .locked → tickStep s = .next t →
    t.params = s.params ∧ t.syncWord = s.syncWord ∧ t.pol = s.pol ∧ t.cls = s.cls ∧ t.det = s.det ∧ t.aux = s.aux ∧
      t.rdata = s.rdata ∧ t.inputs = s.inputs ∧ t.tick = s.tick ∧
      (∀ i, (i ≠ s.fr.idx.toNat ∨ s.fr.tmr ≠ 1 ∨ s.fr.bitcnt ≠ 7) → bufRead t i = bufRead s i) ∧
      (t.fsm ≠ .idle → t.res = s.res)

/-! ## The whole block -/

/-- R112: the sequencer's only transitions and their causes; no other exists. START takes IDLE to SEEK; a valid high, expected,
that passes the lock test takes SEEK to LOCKED (R84); the limit reached takes SEEK to IDLE (R88); the sync gate, the length gate
and the end of the frame take LOCKED to IDLE (R93 to R95). -/
def Obligations.OnlyListedTransitions : Prop :=
  ∀ s t : State, step s = .next t →
    (s.pins.rst = true ∧ t.fsm = .idle) ∨
      (s.pins.rst = false ∧
        (t.fsm = s.fsm ∨
          (s.fsm = .idle ∧ t.fsm = .seek ∧ s.pins.reqValid = true ∧ ∃ d, decode s.pins.req = .wrCtrl d ∧ d.getLsbD 0 = true) ∨
          (s.PhaseEnds ∧ s.PhaseValid ∧ s.cls.lvl = true ∧ s.det.expect = true ∧ s.LockTestPasses ∧ t.fsm = .locked) ∨
          (s.fsm = .seek ∧ ¬ s.WithinLimit ∧ t.fsm = .idle ∧ t.res.result = .timeout) ∨
          (s.ByteDue ∧ s.fr.idx = 1 ∧ (bufRead s 0).toNat * 256 + s.sampled.toNat ≠ s.syncWord.toNat ∧ t.fsm = .idle ∧
            t.res.result = .syncMismatch) ∨
          (s.ByteDue ∧ s.fr.idx = 2 ∧ s.params.maxDataLen < s.sampled.toNat ∧ t.fsm = .idle ∧
            t.res.result = .lengthOverflow) ∨
          (s.ByteDue ∧ 3 ≤ s.fr.idx.toNat ∧ s.fr.idx.toNat = s.fr.len.toNat + 4 ∧ t.fsm = .idle ∧
            (t.res.result = .ok ∨ t.res.result = .crcMismatch))))

/-- R147 (marked as derived), R150, R165: once an attempt has finished, the result registers and `done_o` stay as they are until a START is
accepted or reset. -/
def Obligations.ResultStaysUntilStartOrReset : Prop :=
  ∀ s : State, s.fsm = .idle → s.pins.rst = false →
    ¬ (s.pins.reqValid = true ∧ ∃ d, decode s.pins.req = .wrCtrl d ∧ d.getLsbD 0 = true) →
    ∃ t, step s = .next t ∧ t.res = s.res ∧ t.doneO = s.doneO ∧ t.fsm = .idle ∧ t.fr = s.fr ∧
      (∀ i, bufRead t i = bufRead s i)

/-- R166, R167: while busy, SYNC_WORD and POL are constant whatever the host requests, and AUX changes only
by a write to the auxiliary port. -/
def Obligations.ConfigurationIsConstantWhileBusy : Prop :=
  ∀ s t : State, s.fsm ≠ .idle → s.pins.rst = false → step s = .next t →
    t.syncWord = s.syncWord ∧ t.pol = s.pol ∧
      (t.aux ≠ s.aux → s.pins.reqValid = true ∧
        ((∃ d, decode s.pins.req = .wrCrcAuxClr d) ∨ ∃ d, decode s.pins.req = .wrCrcAuxData d))

/-- R25, R142: only the frame reader writes the packet buffer, byte IDX of a running attempt; no request and no reset changes a
byte. -/
def Obligations.OnlyFrameReaderWritesBuffer : Prop :=
  ∀ s t : State, step s = .next t →
    t.params = s.params ∧
      ∀ i, bufRead t i ≠ bufRead s i → s.pins.rst = false ∧ s.fsm = .locked ∧ i = s.fr.idx.toNat

/-- R9, R28: the reset state of every legal elaboration satisfies the invariant, and so does `State.reset`, whose parameters are
the defaults with `MAX_DATA_LEN` free (log 3). -/
def Obligations.ResetStateSatisfiesInvariant : Prop :=
  State.reset.Inv ∧ ∀ p : Params, p.Legal → State.Inv { State.reset with params := p }

/-- R32, R83, R85, R92, R105, R146, R147 (R85 and R147 marked as derived): every step keeps the invariant, from every state that has it: the runs stay in step,
the running CRC is that of the bytes stored, and what a result code records stays true of the buffer and the registers. -/
def Obligations.StepKeepsInvariant : Prop :=
  ∀ s t : State, s.Inv → step s = .next t → t.Inv

/-- R32, R61, R145: no step of a block that satisfies the invariant stops: no request faults, and no byte is ever written
outside the buffer. -/
def Obligations.StepNeverStops : Prop :=
  ∀ s : State, s.Inv → ∃ t, step s = .next t

/-- R161, R168: the block never depends on a buffer byte that the running attempt has not written: two states that differ only
in such bytes (and in the last `rdata`) step to two states that do. -/
def Obligations.StaleBytesNeverMatter : Prop :=
  ∀ s s' t : State, s.SameButStaleBytes s' → step s = .next t → ∃ t', step s' = .next t' ∧ t.SameButStaleBytes t'

/-- R96 (marked as derived): from LOCKED, without reset, the attempt ends with a result, within the samples that are left of
`8 · CAP`, one every `BIT_TICKS` ticks, whatever the line shows and the host requests. -/
def Obligations.LockedAttemptEnds : Prop :=
  ∀ (s : State) (n : Nat), s.Inv → s.fsm = .locked →
    n = s.fr.tmr.toNat +
      (8 * (s.params.maxDataLen + 5 - s.fr.idx.toNat) - s.fr.bitcnt.toNat - 1) * s.params.bitTicks →
    s.NoReset n →
    ∃ k t, 1 ≤ k ∧ k ≤ n ∧ core.run k s = .next t ∧ t.fsm = .idle ∧ t.res.done = true ∧ t.res.result ≠ .none

/-- R95, R97, R174 (test P3 and P4): any payload that fits, framed and sent after lock at the data sample points, is received:
after `OFFSET_TICKS + 8·(N+5)·BIT_TICKS` ticks the buffer holds the frame, COUNT is N + 5, and RESULT is OK or CRC_MISMATCH as
the trailer is the CRC of the rest, whatever the line shows elsewhere and the host requests. (R174 is marked as derived.) -/
def Obligations.FrameIsReceivedAndChecked : Prop :=
  ∀ (s : State) (payload : List Byte) (hi lo c0 c1 : Byte) (body frame : List Byte),
    s.params.Legal → s.JustLocked → payload.length ≤ s.params.maxDataLen → hi ++ lo = s.syncWord →
    body = hi :: lo :: BitVec.ofNat 8 payload.length :: payload → frame = body ++ [c0, c1] → s.LineSends frame →
    s.NoReset (s.params.offsetTicks + 8 * frame.length * s.params.bitTicks) →
    ∃ t, core.run (s.params.offsetTicks + 8 * frame.length * s.params.bitTicks) s = .next t ∧ t.fsm = .idle ∧
      t.res.done = true ∧ t.res.count.toNat = payload.length + 5 ∧ t.res.crcCalc = crc16 body ∧ t.res.crcRx = c0 ++ c1 ∧
      t.res.result = (if crc16 body = c0 ++ c1 then .ok else .crcMismatch) ∧
      ∀ i, i < frame.length → some (bufRead t i) = frame[i]?

/-- R93, R96 (R96 marked as derived; test P2): two bytes after lock that are not the sync word end the attempt with SYNC_MISMATCH after exactly 16
samples, with COUNT 0. -/
def Obligations.WrongSyncWordAborts : Prop :=
  ∀ (s : State) (b0 b1 : Byte), s.params.Legal → s.JustLocked → b0 ++ b1 ≠ s.syncWord → s.LineSends [b0, b1] →
    s.NoReset (s.params.offsetTicks + 16 * s.params.bitTicks) →
    ∃ t, core.run (s.params.offsetTicks + 16 * s.params.bitTicks) s = .next t ∧ t.fsm = .idle ∧ t.res.done = true ∧
      t.res.result = .syncMismatch ∧ t.res.count = 0 ∧ t.fr.idx = 2 ∧ bufRead t 0 = b0 ∧ bufRead t 1 = b1

/-- R94, R96 (R96 marked as derived; test P6): a length byte above `MAX_DATA_LEN` ends the attempt with LENGTH_OVERFLOW after exactly 24 samples, with
COUNT 0. -/
def Obligations.OversizedLengthAborts : Prop :=
  ∀ (s : State) (b0 b1 n : Byte), s.params.Legal → s.JustLocked → b0 ++ b1 = s.syncWord →
    s.params.maxDataLen < n.toNat → s.LineSends [b0, b1, n] →
    s.NoReset (s.params.offsetTicks + 24 * s.params.bitTicks) →
    ∃ t, core.run (s.params.offsetTicks + 24 * s.params.bitTicks) s = .next t ∧ t.fsm = .idle ∧ t.res.done = true ∧
      t.res.result = .lengthOverflow ∧ t.res.count = 0 ∧ t.fr.idx = 3 ∧ t.fr.len = n

/-! ## The CRC -/

/-- R100 to R103: the examples of the CRC rules, and the published check value. -/
def Obligations.CrcExamples : Prop :=
  crcUpdate 0x0000 0x45 = 0x83CF ∧ crcUpdate 0x83CF 0x00 = 0x4C09 ∧ crcFinal 0x4C09 = 0x6FCD ∧ crc16 [] = 0xFFFF ∧
    crc16 [0x45, 0x00] = 0x6FCD ∧ crc16 [0x31, 0x32, 0x33, 0x34, 0x35, 0x36, 0x37, 0x38, 0x39] = 0x44C2

/-- R104 (which the spec takes from general knowledge): the right-shifting form with polynomial 0xA001 computes the same
function. -/
def Obligations.RightShiftingCrcAgrees : Prop :=
  ∀ bs : List Byte,
    crc16 bs =
      (bs.foldl (fun c b => (List.range 8).foldl
        (fun (x : Word) _ => if x.getLsbD 0 = true then (x >>> 1) ^^^ 0xA001 else x >>> 1) (c ^^^ b.setWidth 16)) 0x0000)
        ^^^ 0xFFFF

/-- R108 (marked as derived): changing one byte of the input, so every single-bit change, changes the CRC; leading zero bytes
do not. -/
def Obligations.CrcSeesAnyOneByteChange : Prop :=
  (∀ (pre post : List Byte) (b b' : Byte), b ≠ b' → crc16 (pre ++ b :: post) ≠ crc16 (pre ++ b' :: post)) ∧
    (∀ (n : Nat) (bs : List Byte), crc16 (List.replicate n 0x00 ++ bs) = crc16 bs) ∧
    crc16 [0x01, 0x02, 0x03, 0x04, 0x05, 0x06, 0x07, 0x08, 0x09, 0x0A] = 0x3B3C ∧ crc16 [0x00, 0x45] = 0x0C3E
end

