-- ==== Sys2Proof/Laws/State.lean ====
section
/-! SUPPORT. What each update of the state leaves in each field: one lemma per field per update. -/

namespace Sys2Proof.Machine

@[simp] theorem State.withSyncWord_params (s : State) (v : Word) : (s.withSyncWord v).params = s.params := rfl
@[simp] theorem State.withSyncWord_syncWord (s : State) (v : Word) : (s.withSyncWord v).syncWord = v := rfl
@[simp] theorem State.withSyncWord_pol (s : State) (v : Word) : (s.withSyncWord v).pol = s.pol := rfl
@[simp] theorem State.withSyncWord_fsm (s : State) (v : Word) : (s.withSyncWord v).fsm = s.fsm := rfl
@[simp] theorem State.withSyncWord_cls (s : State) (v : Word) : (s.withSyncWord v).cls = s.cls := rfl
@[simp] theorem State.withSyncWord_det (s : State) (v : Word) : (s.withSyncWord v).det = s.det := rfl
@[simp] theorem State.withSyncWord_fr (s : State) (v : Word) : (s.withSyncWord v).fr = s.fr := rfl
@[simp] theorem State.withSyncWord_res (s : State) (v : Word) : (s.withSyncWord v).res = s.res := rfl
@[simp] theorem State.withSyncWord_aux (s : State) (v : Word) : (s.withSyncWord v).aux = s.aux := rfl
@[simp] theorem State.withSyncWord_buf (s : State) (v : Word) : (s.withSyncWord v).buf = s.buf := rfl
@[simp] theorem State.withSyncWord_rdata (s : State) (v : Word) : (s.withSyncWord v).rdata = s.rdata := rfl
@[simp] theorem State.withSyncWord_inputs (s : State) (v : Word) : (s.withSyncWord v).inputs = s.inputs := rfl
@[simp] theorem State.withSyncWord_tick (s : State) (v : Word) : (s.withSyncWord v).tick = s.tick := rfl

@[simp] theorem State.withPol_params (s : State) (v : Level) : (s.withPol v).params = s.params := rfl
@[simp] theorem State.withPol_syncWord (s : State) (v : Level) : (s.withPol v).syncWord = s.syncWord := rfl
@[simp] theorem State.withPol_pol (s : State) (v : Level) : (s.withPol v).pol = v := rfl
@[simp] theorem State.withPol_fsm (s : State) (v : Level) : (s.withPol v).fsm = s.fsm := rfl
@[simp] theorem State.withPol_cls (s : State) (v : Level) : (s.withPol v).cls = s.cls := rfl
@[simp] theorem State.withPol_det (s : State) (v : Level) : (s.withPol v).det = s.det := rfl
@[simp] theorem State.withPol_fr (s : State) (v : Level) : (s.withPol v).fr = s.fr := rfl
@[simp] theorem State.withPol_res (s : State) (v : Level) : (s.withPol v).res = s.res := rfl
@[simp] theorem State.withPol_aux (s : State) (v : Level) : (s.withPol v).aux = s.aux := rfl
@[simp] theorem State.withPol_buf (s : State) (v : Level) : (s.withPol v).buf = s.buf := rfl
@[simp] theorem State.withPol_rdata (s : State) (v : Level) : (s.withPol v).rdata = s.rdata := rfl
@[simp] theorem State.withPol_inputs (s : State) (v : Level) : (s.withPol v).inputs = s.inputs := rfl
@[simp] theorem State.withPol_tick (s : State) (v : Level) : (s.withPol v).tick = s.tick := rfl

@[simp] theorem State.withFsm_params (s : State) (v : Fsm) : (s.withFsm v).params = s.params := rfl
@[simp] theorem State.withFsm_syncWord (s : State) (v : Fsm) : (s.withFsm v).syncWord = s.syncWord := rfl
@[simp] theorem State.withFsm_pol (s : State) (v : Fsm) : (s.withFsm v).pol = s.pol := rfl
@[simp] theorem State.withFsm_fsm (s : State) (v : Fsm) : (s.withFsm v).fsm = v := rfl
@[simp] theorem State.withFsm_cls (s : State) (v : Fsm) : (s.withFsm v).cls = s.cls := rfl
@[simp] theorem State.withFsm_det (s : State) (v : Fsm) : (s.withFsm v).det = s.det := rfl
@[simp] theorem State.withFsm_fr (s : State) (v : Fsm) : (s.withFsm v).fr = s.fr := rfl
@[simp] theorem State.withFsm_res (s : State) (v : Fsm) : (s.withFsm v).res = s.res := rfl
@[simp] theorem State.withFsm_aux (s : State) (v : Fsm) : (s.withFsm v).aux = s.aux := rfl
@[simp] theorem State.withFsm_buf (s : State) (v : Fsm) : (s.withFsm v).buf = s.buf := rfl
@[simp] theorem State.withFsm_rdata (s : State) (v : Fsm) : (s.withFsm v).rdata = s.rdata := rfl
@[simp] theorem State.withFsm_inputs (s : State) (v : Fsm) : (s.withFsm v).inputs = s.inputs := rfl
@[simp] theorem State.withFsm_tick (s : State) (v : Fsm) : (s.withFsm v).tick = s.tick := rfl

@[simp] theorem State.withCls_params (s : State) (v : Classifier) : (s.withCls v).params = s.params := rfl
@[simp] theorem State.withCls_syncWord (s : State) (v : Classifier) : (s.withCls v).syncWord = s.syncWord := rfl
@[simp] theorem State.withCls_pol (s : State) (v : Classifier) : (s.withCls v).pol = s.pol := rfl
@[simp] theorem State.withCls_fsm (s : State) (v : Classifier) : (s.withCls v).fsm = s.fsm := rfl
@[simp] theorem State.withCls_cls (s : State) (v : Classifier) : (s.withCls v).cls = v := rfl
@[simp] theorem State.withCls_det (s : State) (v : Classifier) : (s.withCls v).det = s.det := rfl
@[simp] theorem State.withCls_fr (s : State) (v : Classifier) : (s.withCls v).fr = s.fr := rfl
@[simp] theorem State.withCls_res (s : State) (v : Classifier) : (s.withCls v).res = s.res := rfl
@[simp] theorem State.withCls_aux (s : State) (v : Classifier) : (s.withCls v).aux = s.aux := rfl
@[simp] theorem State.withCls_buf (s : State) (v : Classifier) : (s.withCls v).buf = s.buf := rfl
@[simp] theorem State.withCls_rdata (s : State) (v : Classifier) : (s.withCls v).rdata = s.rdata := rfl
@[simp] theorem State.withCls_inputs (s : State) (v : Classifier) : (s.withCls v).inputs = s.inputs := rfl
@[simp] theorem State.withCls_tick (s : State) (v : Classifier) : (s.withCls v).tick = s.tick := rfl

@[simp] theorem State.withDet_params (s : State) (v : Detector) : (s.withDet v).params = s.params := rfl
@[simp] theorem State.withDet_syncWord (s : State) (v : Detector) : (s.withDet v).syncWord = s.syncWord := rfl
@[simp] theorem State.withDet_pol (s : State) (v : Detector) : (s.withDet v).pol = s.pol := rfl
@[simp] theorem State.withDet_fsm (s : State) (v : Detector) : (s.withDet v).fsm = s.fsm := rfl
@[simp] theorem State.withDet_cls (s : State) (v : Detector) : (s.withDet v).cls = s.cls := rfl
@[simp] theorem State.withDet_det (s : State) (v : Detector) : (s.withDet v).det = v := rfl
@[simp] theorem State.withDet_fr (s : State) (v : Detector) : (s.withDet v).fr = s.fr := rfl
@[simp] theorem State.withDet_res (s : State) (v : Detector) : (s.withDet v).res = s.res := rfl
@[simp] theorem State.withDet_aux (s : State) (v : Detector) : (s.withDet v).aux = s.aux := rfl
@[simp] theorem State.withDet_buf (s : State) (v : Detector) : (s.withDet v).buf = s.buf := rfl
@[simp] theorem State.withDet_rdata (s : State) (v : Detector) : (s.withDet v).rdata = s.rdata := rfl
@[simp] theorem State.withDet_inputs (s : State) (v : Detector) : (s.withDet v).inputs = s.inputs := rfl
@[simp] theorem State.withDet_tick (s : State) (v : Detector) : (s.withDet v).tick = s.tick := rfl

@[simp] theorem State.withFr_params (s : State) (v : FrameReader) : (s.withFr v).params = s.params := rfl
@[simp] theorem State.withFr_syncWord (s : State) (v : FrameReader) : (s.withFr v).syncWord = s.syncWord := rfl
@[simp] theorem State.withFr_pol (s : State) (v : FrameReader) : (s.withFr v).pol = s.pol := rfl
@[simp] theorem State.withFr_fsm (s : State) (v : FrameReader) : (s.withFr v).fsm = s.fsm := rfl
@[simp] theorem State.withFr_cls (s : State) (v : FrameReader) : (s.withFr v).cls = s.cls := rfl
@[simp] theorem State.withFr_det (s : State) (v : FrameReader) : (s.withFr v).det = s.det := rfl
@[simp] theorem State.withFr_fr (s : State) (v : FrameReader) : (s.withFr v).fr = v := rfl
@[simp] theorem State.withFr_res (s : State) (v : FrameReader) : (s.withFr v).res = s.res := rfl
@[simp] theorem State.withFr_aux (s : State) (v : FrameReader) : (s.withFr v).aux = s.aux := rfl
@[simp] theorem State.withFr_buf (s : State) (v : FrameReader) : (s.withFr v).buf = s.buf := rfl
@[simp] theorem State.withFr_rdata (s : State) (v : FrameReader) : (s.withFr v).rdata = s.rdata := rfl
@[simp] theorem State.withFr_inputs (s : State) (v : FrameReader) : (s.withFr v).inputs = s.inputs := rfl
@[simp] theorem State.withFr_tick (s : State) (v : FrameReader) : (s.withFr v).tick = s.tick := rfl

@[simp] theorem State.withRes_params (s : State) (v : ResultRegs) : (s.withRes v).params = s.params := rfl
@[simp] theorem State.withRes_syncWord (s : State) (v : ResultRegs) : (s.withRes v).syncWord = s.syncWord := rfl
@[simp] theorem State.withRes_pol (s : State) (v : ResultRegs) : (s.withRes v).pol = s.pol := rfl
@[simp] theorem State.withRes_fsm (s : State) (v : ResultRegs) : (s.withRes v).fsm = s.fsm := rfl
@[simp] theorem State.withRes_cls (s : State) (v : ResultRegs) : (s.withRes v).cls = s.cls := rfl
@[simp] theorem State.withRes_det (s : State) (v : ResultRegs) : (s.withRes v).det = s.det := rfl
@[simp] theorem State.withRes_fr (s : State) (v : ResultRegs) : (s.withRes v).fr = s.fr := rfl
@[simp] theorem State.withRes_res (s : State) (v : ResultRegs) : (s.withRes v).res = v := rfl
@[simp] theorem State.withRes_aux (s : State) (v : ResultRegs) : (s.withRes v).aux = s.aux := rfl
@[simp] theorem State.withRes_buf (s : State) (v : ResultRegs) : (s.withRes v).buf = s.buf := rfl
@[simp] theorem State.withRes_rdata (s : State) (v : ResultRegs) : (s.withRes v).rdata = s.rdata := rfl
@[simp] theorem State.withRes_inputs (s : State) (v : ResultRegs) : (s.withRes v).inputs = s.inputs := rfl
@[simp] theorem State.withRes_tick (s : State) (v : ResultRegs) : (s.withRes v).tick = s.tick := rfl

@[simp] theorem State.withAux_params (s : State) (v : Word) : (s.withAux v).params = s.params := rfl
@[simp] theorem State.withAux_syncWord (s : State) (v : Word) : (s.withAux v).syncWord = s.syncWord := rfl
@[simp] theorem State.withAux_pol (s : State) (v : Word) : (s.withAux v).pol = s.pol := rfl
@[simp] theorem State.withAux_fsm (s : State) (v : Word) : (s.withAux v).fsm = s.fsm := rfl
@[simp] theorem State.withAux_cls (s : State) (v : Word) : (s.withAux v).cls = s.cls := rfl
@[simp] theorem State.withAux_det (s : State) (v : Word) : (s.withAux v).det = s.det := rfl
@[simp] theorem State.withAux_fr (s : State) (v : Word) : (s.withAux v).fr = s.fr := rfl
@[simp] theorem State.withAux_res (s : State) (v : Word) : (s.withAux v).res = s.res := rfl
@[simp] theorem State.withAux_aux (s : State) (v : Word) : (s.withAux v).aux = v := rfl
@[simp] theorem State.withAux_buf (s : State) (v : Word) : (s.withAux v).buf = s.buf := rfl
@[simp] theorem State.withAux_rdata (s : State) (v : Word) : (s.withAux v).rdata = s.rdata := rfl
@[simp] theorem State.withAux_inputs (s : State) (v : Word) : (s.withAux v).inputs = s.inputs := rfl
@[simp] theorem State.withAux_tick (s : State) (v : Word) : (s.withAux v).tick = s.tick := rfl

@[simp] theorem State.withBuf_params (s : State) (v : Memory) : (s.withBuf v).params = s.params := rfl
@[simp] theorem State.withBuf_syncWord (s : State) (v : Memory) : (s.withBuf v).syncWord = s.syncWord := rfl
@[simp] theorem State.withBuf_pol (s : State) (v : Memory) : (s.withBuf v).pol = s.pol := rfl
@[simp] theorem State.withBuf_fsm (s : State) (v : Memory) : (s.withBuf v).fsm = s.fsm := rfl
@[simp] theorem State.withBuf_cls (s : State) (v : Memory) : (s.withBuf v).cls = s.cls := rfl
@[simp] theorem State.withBuf_det (s : State) (v : Memory) : (s.withBuf v).det = s.det := rfl
@[simp] theorem State.withBuf_fr (s : State) (v : Memory) : (s.withBuf v).fr = s.fr := rfl
@[simp] theorem State.withBuf_res (s : State) (v : Memory) : (s.withBuf v).res = s.res := rfl
@[simp] theorem State.withBuf_aux (s : State) (v : Memory) : (s.withBuf v).aux = s.aux := rfl
@[simp] theorem State.withBuf_buf (s : State) (v : Memory) : (s.withBuf v).buf = v := rfl
@[simp] theorem State.withBuf_rdata (s : State) (v : Memory) : (s.withBuf v).rdata = s.rdata := rfl
@[simp] theorem State.withBuf_inputs (s : State) (v : Memory) : (s.withBuf v).inputs = s.inputs := rfl
@[simp] theorem State.withBuf_tick (s : State) (v : Memory) : (s.withBuf v).tick = s.tick := rfl

@[simp] theorem State.withRdata_params (s : State) (v : Word) : (s.withRdata v).params = s.params := rfl
@[simp] theorem State.withRdata_syncWord (s : State) (v : Word) : (s.withRdata v).syncWord = s.syncWord := rfl
@[simp] theorem State.withRdata_pol (s : State) (v : Word) : (s.withRdata v).pol = s.pol := rfl
@[simp] theorem State.withRdata_fsm (s : State) (v : Word) : (s.withRdata v).fsm = s.fsm := rfl
@[simp] theorem State.withRdata_cls (s : State) (v : Word) : (s.withRdata v).cls = s.cls := rfl
@[simp] theorem State.withRdata_det (s : State) (v : Word) : (s.withRdata v).det = s.det := rfl
@[simp] theorem State.withRdata_fr (s : State) (v : Word) : (s.withRdata v).fr = s.fr := rfl
@[simp] theorem State.withRdata_res (s : State) (v : Word) : (s.withRdata v).res = s.res := rfl
@[simp] theorem State.withRdata_aux (s : State) (v : Word) : (s.withRdata v).aux = s.aux := rfl
@[simp] theorem State.withRdata_buf (s : State) (v : Word) : (s.withRdata v).buf = s.buf := rfl
@[simp] theorem State.withRdata_rdata (s : State) (v : Word) : (s.withRdata v).rdata = v := rfl
@[simp] theorem State.withRdata_inputs (s : State) (v : Word) : (s.withRdata v).inputs = s.inputs := rfl
@[simp] theorem State.withRdata_tick (s : State) (v : Word) : (s.withRdata v).tick = s.tick := rfl

@[simp] theorem State.withInputs_params (s : State) (v : List Pins) : (s.withInputs v).params = s.params := rfl
@[simp] theorem State.withInputs_syncWord (s : State) (v : List Pins) : (s.withInputs v).syncWord = s.syncWord := rfl
@[simp] theorem State.withInputs_pol (s : State) (v : List Pins) : (s.withInputs v).pol = s.pol := rfl
@[simp] theorem State.withInputs_fsm (s : State) (v : List Pins) : (s.withInputs v).fsm = s.fsm := rfl
@[simp] theorem State.withInputs_cls (s : State) (v : List Pins) : (s.withInputs v).cls = s.cls := rfl
@[simp] theorem State.withInputs_det (s : State) (v : List Pins) : (s.withInputs v).det = s.det := rfl
@[simp] theorem State.withInputs_fr (s : State) (v : List Pins) : (s.withInputs v).fr = s.fr := rfl
@[simp] theorem State.withInputs_res (s : State) (v : List Pins) : (s.withInputs v).res = s.res := rfl
@[simp] theorem State.withInputs_aux (s : State) (v : List Pins) : (s.withInputs v).aux = s.aux := rfl
@[simp] theorem State.withInputs_buf (s : State) (v : List Pins) : (s.withInputs v).buf = s.buf := rfl
@[simp] theorem State.withInputs_rdata (s : State) (v : List Pins) : (s.withInputs v).rdata = s.rdata := rfl
@[simp] theorem State.withInputs_inputs (s : State) (v : List Pins) : (s.withInputs v).inputs = v := rfl
@[simp] theorem State.withInputs_tick (s : State) (v : List Pins) : (s.withInputs v).tick = s.tick := rfl

@[simp] theorem State.advance_params (s : State) : s.advance.params = s.params := rfl
@[simp] theorem State.advance_syncWord (s : State) : s.advance.syncWord = s.syncWord := rfl
@[simp] theorem State.advance_pol (s : State) : s.advance.pol = s.pol := rfl
@[simp] theorem State.advance_fsm (s : State) : s.advance.fsm = s.fsm := rfl
@[simp] theorem State.advance_cls (s : State) : s.advance.cls = s.cls := rfl
@[simp] theorem State.advance_det (s : State) : s.advance.det = s.det := rfl
@[simp] theorem State.advance_fr (s : State) : s.advance.fr = s.fr := rfl
@[simp] theorem State.advance_res (s : State) : s.advance.res = s.res := rfl
@[simp] theorem State.advance_aux (s : State) : s.advance.aux = s.aux := rfl
@[simp] theorem State.advance_buf (s : State) : s.advance.buf = s.buf := rfl
@[simp] theorem State.advance_rdata (s : State) : s.advance.rdata = s.rdata := rfl
@[simp] theorem State.advance_inputs (s : State) : s.advance.inputs = s.inputs.tail := rfl
@[simp] theorem State.advance_tick (s : State) : s.advance.tick = s.tick + 1 := rfl

@[simp] theorem beginAttempt_params (s : State) : (beginAttempt s).params = s.params := rfl
@[simp] theorem beginAttempt_syncWord (s : State) : (beginAttempt s).syncWord = s.syncWord := rfl
@[simp] theorem beginAttempt_pol (s : State) : (beginAttempt s).pol = s.pol := rfl
@[simp] theorem beginAttempt_fsm (s : State) : (beginAttempt s).fsm = .seek := rfl
@[simp] theorem beginAttempt_cls (s : State) : (beginAttempt s).cls = .cleared := rfl
@[simp] theorem beginAttempt_det (s : State) : (beginAttempt s).det = .cleared := rfl
@[simp] theorem beginAttempt_fr (s : State) : (beginAttempt s).fr = .cleared := rfl
@[simp] theorem beginAttempt_res (s : State) : (beginAttempt s).res = .cleared := rfl
@[simp] theorem beginAttempt_aux (s : State) : (beginAttempt s).aux = s.aux := rfl
@[simp] theorem beginAttempt_buf (s : State) : (beginAttempt s).buf = s.buf := rfl
@[simp] theorem beginAttempt_rdata (s : State) : (beginAttempt s).rdata = s.rdata := rfl
@[simp] theorem beginAttempt_inputs (s : State) : (beginAttempt s).inputs = s.inputs := rfl
@[simp] theorem beginAttempt_tick (s : State) : (beginAttempt s).tick = s.tick := rfl

@[simp] theorem resetState_params (s : State) : (resetState s).params = s.params := rfl
@[simp] theorem resetState_syncWord (s : State) : (resetState s).syncWord = 0x5AA5 := rfl
@[simp] theorem resetState_pol (s : State) : (resetState s).pol = false := rfl
@[simp] theorem resetState_fsm (s : State) : (resetState s).fsm = .idle := rfl
@[simp] theorem resetState_cls (s : State) : (resetState s).cls = .cleared := rfl
@[simp] theorem resetState_det (s : State) : (resetState s).det = .cleared := rfl
@[simp] theorem resetState_fr (s : State) : (resetState s).fr = .cleared := rfl
@[simp] theorem resetState_res (s : State) : (resetState s).res = .cleared := rfl
@[simp] theorem resetState_aux (s : State) : (resetState s).aux = 0x0000 := rfl
@[simp] theorem resetState_buf (s : State) : (resetState s).buf = s.buf := rfl
@[simp] theorem resetState_rdata (s : State) : (resetState s).rdata = 0x0000 := rfl
@[simp] theorem resetState_inputs (s : State) : (resetState s).inputs = s.inputs := rfl
@[simp] theorem resetState_tick (s : State) : (resetState s).tick = s.tick := rfl

@[simp] theorem finish_params (code : ResultCode) (count : BitVec 9) (s : State) :
    (finish code count s).params = s.params := rfl
@[simp] theorem finish_syncWord (code : ResultCode) (count : BitVec 9) (s : State) :
    (finish code count s).syncWord = s.syncWord := rfl
@[simp] theorem finish_pol (code : ResultCode) (count : BitVec 9) (s : State) :
    (finish code count s).pol = s.pol := rfl
@[simp] theorem finish_fsm (code : ResultCode) (count : BitVec 9) (s : State) :
    (finish code count s).fsm = .idle := rfl
@[simp] theorem finish_cls (code : ResultCode) (count : BitVec 9) (s : State) :
    (finish code count s).cls = s.cls := rfl
@[simp] theorem finish_det (code : ResultCode) (count : BitVec 9) (s : State) :
    (finish code count s).det = s.det := rfl
@[simp] theorem finish_fr (code : ResultCode) (count : BitVec 9) (s : State) :
    (finish code count s).fr = s.fr := rfl
@[simp] theorem finish_res (code : ResultCode) (count : BitVec 9) (s : State) :
    (finish code count s).res = { s.res with done := true, result := code, count := count } := rfl
@[simp] theorem finish_aux (code : ResultCode) (count : BitVec 9) (s : State) :
    (finish code count s).aux = s.aux := rfl
@[simp] theorem finish_buf (code : ResultCode) (count : BitVec 9) (s : State) :
    (finish code count s).buf = s.buf := rfl
@[simp] theorem finish_rdata (code : ResultCode) (count : BitVec 9) (s : State) :
    (finish code count s).rdata = s.rdata := rfl
@[simp] theorem finish_inputs (code : ResultCode) (count : BitVec 9) (s : State) :
    (finish code count s).inputs = s.inputs := rfl
@[simp] theorem finish_tick (code : ResultCode) (count : BitVec 9) (s : State) :
    (finish code count s).tick = s.tick := rfl

@[simp] theorem lock_params (s : State) :
    (lock s).params = s.params := rfl
@[simp] theorem lock_syncWord (s : State) :
    (lock s).syncWord = s.syncWord := rfl
@[simp] theorem lock_pol (s : State) :
    (lock s).pol = s.pol := rfl
@[simp] theorem lock_fsm (s : State) :
    (lock s).fsm = .locked := rfl
@[simp] theorem lock_cls (s : State) :
    (lock s).cls = s.cls := rfl
@[simp] theorem lock_det (s : State) :
    (lock s).det = s.det := rfl
@[simp] theorem lock_fr (s : State) :
    (lock s).fr = { s.fr with tmr := BitVec.ofNat 17 (s.params.offsetTicks + s.params.bitTicks), shreg := 0, bitcnt := 0, idx := 0, crc := 0x0000 } := rfl
@[simp] theorem lock_res (s : State) :
    (lock s).res = s.res := rfl
@[simp] theorem lock_aux (s : State) :
    (lock s).aux = s.aux := rfl
@[simp] theorem lock_buf (s : State) :
    (lock s).buf = s.buf := rfl
@[simp] theorem lock_rdata (s : State) :
    (lock s).rdata = s.rdata := rfl
@[simp] theorem lock_inputs (s : State) :
    (lock s).inputs = s.inputs := rfl
@[simp] theorem lock_tick (s : State) :
    (lock s).tick = s.tick := rfl

end Sys2Proof.Machine
end

