-- ==== Sys2Proof/Laws/Memory.lean ====
section
/-! SUPPORT. The packet buffer: read after write, and that every operation keeps the canonical form. -/

namespace Sys2Proof.Machine

@[simp] theorem Memory.get_nil (i : Nat) : Memory.get [] i = none := rfl

theorem Memory.get_cons (a : Nat) (w : Byte) (m : Memory) (i : Nat) :
    Memory.get ((a, w) :: m) i = if a = i then some w else Memory.get m i := rfl

theorem Memory.set_cons (a : Nat) (w : Byte) (m : Memory) (i : Nat) (v : Byte) :
    Memory.set ((a, w) :: m) i v =
      if i < a then (i, v) :: (a, w) :: m else if i = a then (i, v) :: m else (a, w) :: Memory.set m i v := rfl

/-- Read after write: the byte stored, and every other index as before. -/
theorem Memory.get_set (m : Memory) (i : Nat) (v : Byte) (j : Nat) :
    Memory.get (Memory.set m i v) j = if i = j then some v else Memory.get m j := by
  induction m with
  | nil => simp [Memory.set, Memory.get_cons]
  | cons c m ih =>
    obtain ⟨a, w⟩ := c
    rw [Memory.set_cons]
    split
    · simp [Memory.get_cons]
    · split
      · rename_i h
        subst h
        by_cases hj : i = j <;> simp [Memory.get_cons, hj]
      · rename_i h
        simp only [Memory.get_cons, ih]
        by_cases ha : a = j
        · have hi : i ≠ j := by omega
          simp [ha, hi]
        · simp [ha]

theorem Memory.get_set_self (m : Memory) (i : Nat) (v : Byte) : Memory.get (Memory.set m i v) i = some v := by
  simp [Memory.get_set]

theorem Memory.get_set_other (m : Memory) {i j : Nat} (v : Byte) (h : i ≠ j) :
    Memory.get (Memory.set m i v) j = Memory.get m j := by
  simp [Memory.get_set, h]

/-! ## The canonical form -/

theorem Memory.risesFrom_cons (lo : Option Nat) (a : Nat) (w : Byte) (m : Memory) :
    Memory.risesFrom lo ((a, w) :: m) = true ↔ (∀ l, lo = some l → l < a) ∧ Memory.risesFrom (some a) m = true := by
  cases lo <;> simp [Memory.risesFrom]

theorem Memory.risesFrom_set (m : Memory) (i : Nat) (v : Byte) :
    ∀ lo : Option Nat, Memory.risesFrom lo m = true → (∀ l, lo = some l → l < i) →
      Memory.risesFrom lo (Memory.set m i v) = true := by
  induction m with
  | nil =>
    intro lo _ hl
    exact (Memory.risesFrom_cons lo i v []).2 ⟨hl, rfl⟩
  | cons c m ih =>
    obtain ⟨a, w⟩ := c
    intro lo h hl
    obtain ⟨h1, h2⟩ := (Memory.risesFrom_cons lo a w m).1 h
    rw [Memory.set_cons]
    split
    · rename_i hlt
      refine (Memory.risesFrom_cons _ _ _ _).2 ⟨hl, (Memory.risesFrom_cons _ _ _ _).2 ⟨?_, h2⟩⟩
      rintro l ⟨⟩
      exact hlt
    · split
      · rename_i heq
        subst heq
        exact (Memory.risesFrom_cons _ _ _ _).2 ⟨hl, h2⟩
      · refine (Memory.risesFrom_cons _ _ _ _).2 ⟨h1, ih (some a) h2 ?_⟩
        rintro l ⟨⟩
        omega

/-- A write keeps the canonical form. -/
theorem Memory.wf_set (m : Memory) (i : Nat) (v : Byte) (h : Memory.wf m = true) : Memory.wf (Memory.set m i v) = true :=
  Memory.risesFrom_set m i v none h (by simp)

theorem Memory.wf_nil : Memory.wf [] = true := rfl

/-- A write below `cap` keeps every index below `cap`. -/
theorem Memory.below_set {m : Memory} {cap i : Nat} (v : Byte) (h : Memory.Below m cap) (hi : i < cap) :
    Memory.Below (Memory.set m i v) cap := by
  induction m with
  | nil =>
    intro c hc
    obtain rfl : c = (i, v) := by simpa [Memory.set] using hc
    exact hi
  | cons c m ih =>
    obtain ⟨a, w⟩ := c
    have ha : a < cap := h (a, w) (by simp)
    have hm : Memory.Below m cap := fun c hc => h c (by simp [hc])
    rw [Memory.set_cons]
    split
    · intro c hc
      rcases List.mem_cons.1 hc with rfl | hc
      · exact hi
      · exact h c hc
    · split
      · intro c hc
        rcases List.mem_cons.1 hc with rfl | hc
        · exact hi
        · exact hm c hc
      · intro c hc
        rcases List.mem_cons.1 hc with rfl | hc
        · exact ha
        · exact ih hm c hc

theorem Memory.below_nil (cap : Nat) : Memory.Below [] cap := fun _ h => absurd h (by simp)

theorem Memory.get_none_of_rises (m : Memory) : ∀ lo, Memory.risesFrom (some lo) m = true → ∀ i, i ≤ lo →
    Memory.get m i = none := by
  induction m with
  | nil => intros; rfl
  | cons c m ih =>
    obtain ⟨a, w⟩ := c
    intro lo h i hi
    obtain ⟨h1, h2⟩ := (Memory.risesFrom_cons _ a w m).1 h
    have ha := h1 lo rfl
    rw [Memory.get_cons, if_neg (by omega)]
    exact ih a h2 i (by omega)

theorem Memory.eq_of_get_from (m n : Memory) : ∀ lo k, Memory.risesFrom lo m = true → Memory.risesFrom k n = true →
    (∀ i, Memory.get m i = Memory.get n i) → m = n := by
  induction m generalizing n with
  | nil =>
    intro lo k _ hn h
    cases n with
    | nil => rfl
    | cons c n =>
      have := h c.1
      rw [Memory.get_nil, Memory.get_cons, if_pos rfl] at this
      cases this
  | cons c m ih =>
    obtain ⟨a, w⟩ := c
    intro lo k hm hn h
    cases n with
    | nil =>
      have := h a
      rw [Memory.get_nil, Memory.get_cons, if_pos rfl] at this
      cases this
    | cons d n =>
      obtain ⟨b, x⟩ := d
      have hm' := ((Memory.risesFrom_cons _ _ _ _).1 hm).2
      have hn' := ((Memory.risesFrom_cons _ _ _ _).1 hn).2
      have hab : a = b := by
        rcases Nat.lt_trichotomy a b with hlt | heq | hgt
        · have := h a
          rw [Memory.get_cons, if_pos rfl, Memory.get_cons, if_neg (by omega),
            Memory.get_none_of_rises n b hn' a (by omega)] at this
          cases this
        · exact heq
        · have := h b
          rw [Memory.get_cons, if_neg (by omega), Memory.get_cons, if_pos rfl,
            Memory.get_none_of_rises m a hm' b (by omega)] at this
          cases this
      subst hab
      have hw := h a
      rw [Memory.get_cons, if_pos rfl, Memory.get_cons, if_pos rfl] at hw
      obtain rfl := Option.some.inj hw
      congr 1
      refine ih n (some a) (some a) hm' hn' fun i => ?_
      by_cases hi : a = i
      · rw [Memory.get_none_of_rises m a hm' i (by omega), Memory.get_none_of_rises n a hn' i (by omega)]
      · have := h i
        rwa [Memory.get_cons, if_neg hi, Memory.get_cons, if_neg hi] at this

/-- Equal buffers are equal lists: two canonical buffers that list the same bytes are the same. -/
theorem Memory.eq_of_get {m n : Memory} (hm : Memory.wf m = true) (hn : Memory.wf n = true)
    (h : ∀ i, Memory.get m i = Memory.get n i) : m = n :=
  Memory.eq_of_get_from m n none none hm hn h

/-! ## BufRead and BufWrite -/

/-- BufRead after a write to the list. -/
theorem bufRead_withBuf_set (s : State) (i : Nat) (v : Byte) (j : Nat) :
    bufRead (s.withBuf (Memory.set s.buf i v)) j = if i = j then v else bufRead s j := by
  by_cases h : i = j <;> simp [bufRead, Memory.get_set, h]

/-- BufRead depends on the packet buffer alone. -/
theorem bufRead_congr {s t : State} (h : s.buf = t.buf) (i : Nat) : bufRead s i = bufRead t i := by
  simp [bufRead, h]

/-- Everything BufWrite can do: below `CAP` it stores the byte and goes on; elsewhere it faults. -/
theorem bufWrite_cases (s : State) (i : Nat) (v : Byte) :
    (i < s.params.cap ∧ bufWrite s i v = .next (s.withBuf (Memory.set s.buf i v))) ∨
      (¬ i < s.params.cap ∧ bufWrite s i v = .fault .bufWriteOutsideBuffer) := by
  by_cases h : i < s.params.cap <;> simp [bufWrite, h]

/-- BufWrite, when it goes on. -/
theorem bufWrite_next {s t : State} {i : Nat} {v : Byte} (h : bufWrite s i v = .next t) :
    i < s.params.cap ∧ t = s.withBuf (Memory.set s.buf i v) := by
  rcases bufWrite_cases s i v with ⟨hi, e⟩ | ⟨-, e⟩
  · rw [e] at h
    cases h
    exact ⟨hi, rfl⟩
  · rw [e] at h
    cases h

/-- Stored bytes stay stored, and one more index is. -/
theorem Memory.stored_set {m : Memory} {n : Nat} (v : Byte) (h : Memory.Stored m n) :
    Memory.Stored (Memory.set m n v) (n + 1) := by
  intro i hi
  rw [Memory.get_set]
  split
  · rfl
  · exact h i (by omega)

theorem Memory.stored_zero (m : Memory) : Memory.Stored m 0 := fun _ h => absurd h (by omega)

end Sys2Proof.Machine
end

