-- ==== Sys2Proof/Laws/PerInstr.lean ====
section
/-! SUPPORT. One family of statements about every operation as syntax: the fields of its request word (R66). -/

namespace Sys2Proof.Laws

/-- The request word of an operation carries its direction, RSV = 0, its address and its write data (R47, R66). -/
def EncodeShape.Statement (i : Instr) : Prop :=
  ReqWord.we (encode i) = i.isWrite ∧ ReqWord.rsv (encode i) = 0 ∧ ReqWord.addr (encode i) = i.addr ∧
    ReqWord.wdata (encode i) = i.wdata

/-- The bits of a word made from fields (R47). -/
theorem ofFields_getLsbD (w : Bool) (r : BitVec 3) (a : Addr) (d : Word) (j : Nat) :
    (ReqWord.ofFields w r a d).getLsbD j =
      if j < 16 then d.getLsbD j
      else if j - 16 < 12 then a.getLsbD (j - 16)
      else if j - 16 - 12 < 3 then r.getLsbD (j - 16 - 12)
      else (BitVec.ofBool w).getLsbD (j - 16 - 12 - 3) := by
  refine (BitVec.getLsbD_append (x := BitVec.ofBool w ++ r ++ a) (y := d)).trans ?_
  split
  · rfl
  refine (BitVec.getLsbD_append (x := BitVec.ofBool w ++ r) (y := a)).trans ?_
  split
  · rfl
  exact BitVec.getLsbD_append (x := BitVec.ofBool w) (y := r)

/-- The fields of a word made from fields are those fields (R47). -/
theorem ofFields_fields (w : Bool) (r : BitVec 3) (a : Addr) (d : Word) :
    ReqWord.we (ReqWord.ofFields w r a d) = w ∧ ReqWord.rsv (ReqWord.ofFields w r a d) = r ∧
      ReqWord.addr (ReqWord.ofFields w r a d) = a ∧ ReqWord.wdata (ReqWord.ofFields w r a d) = d := by
  refine ⟨?_, ?_, ?_, ?_⟩
  · unfold ReqWord.we
    rw [ofFields_getLsbD]
    cases w <;> rfl
  · apply BitVec.eq_of_getLsbD_eq
    intro j hj
    unfold ReqWord.rsv
    rw [BitVec.getLsbD_extractLsb', ofFields_getLsbD, if_neg (by omega), if_neg (by omega), if_pos (by omega),
      show 28 + j - 16 - 12 = j by omega]
    simp [hj]
  · apply BitVec.eq_of_getLsbD_eq
    intro j hj
    unfold ReqWord.addr
    rw [BitVec.getLsbD_extractLsb', ofFields_getLsbD, if_neg (by omega), if_pos (by omega),
      show 16 + j - 16 = j by omega]
    simp [hj]
  · apply BitVec.eq_of_getLsbD_eq
    intro j hj
    unfold ReqWord.wdata
    rw [BitVec.getLsbD_extractLsb', ofFields_getLsbD, if_pos (by omega), Nat.zero_add]
    simp [hj]

/-- A word is made from its fields (R47). -/
theorem ofFields_of_fields (q : ReqWord) :
    ReqWord.ofFields (ReqWord.we q) (ReqWord.rsv q) (ReqWord.addr q) (ReqWord.wdata q) = q := by
  apply BitVec.eq_of_getLsbD_eq
  intro j hj
  rw [ofFields_getLsbD]
  unfold ReqWord.we ReqWord.rsv ReqWord.addr ReqWord.wdata
  simp only [BitVec.getLsbD_extractLsb']
  split
  · rename_i h
    simp [h]
  · split
    · rename_i h
      simp [h, show 16 + (j - 16) = j by omega]
    · split
      · rename_i h
        simp [h, show 28 + (j - 16 - 12) = j by omega]
      · obtain rfl : j = 31 := by omega
        simp

theorem encode_fields (i : Instr) : EncodeShape.Statement i := ofFields_fields i.isWrite 0 i.addr i.wdata

theorem EncodeShape.rdCtrl : EncodeShape.Statement .rdCtrl := encode_fields _
theorem EncodeShape.wrCtrl (d : Word) : EncodeShape.Statement (.wrCtrl d) := encode_fields _
theorem EncodeShape.rdStatus : EncodeShape.Statement .rdStatus := encode_fields _
theorem EncodeShape.wrStatus (d : Word) : EncodeShape.Statement (.wrStatus d) := encode_fields _
theorem EncodeShape.rdCount : EncodeShape.Statement .rdCount := encode_fields _
theorem EncodeShape.wrCount (d : Word) : EncodeShape.Statement (.wrCount d) := encode_fields _
theorem EncodeShape.rdCrcCalc : EncodeShape.Statement .rdCrcCalc := encode_fields _
theorem EncodeShape.wrCrcCalc (d : Word) : EncodeShape.Statement (.wrCrcCalc d) := encode_fields _
theorem EncodeShape.rdCrcRx : EncodeShape.Statement .rdCrcRx := encode_fields _
theorem EncodeShape.wrCrcRx (d : Word) : EncodeShape.Statement (.wrCrcRx d) := encode_fields _
theorem EncodeShape.rdSyncWord : EncodeShape.Statement .rdSyncWord := encode_fields _
theorem EncodeShape.wrSyncWord (d : Word) : EncodeShape.Statement (.wrSyncWord d) := encode_fields _
theorem EncodeShape.rdConfig : EncodeShape.Statement .rdConfig := encode_fields _
theorem EncodeShape.wrConfig (d : Word) : EncodeShape.Statement (.wrConfig d) := encode_fields _
theorem EncodeShape.rdIdx : EncodeShape.Statement .rdIdx := encode_fields _
theorem EncodeShape.wrIdx (d : Word) : EncodeShape.Statement (.wrIdx d) := encode_fields _
theorem EncodeShape.rdLen : EncodeShape.Statement .rdLen := encode_fields _
theorem EncodeShape.wrLen (d : Word) : EncodeShape.Statement (.wrLen d) := encode_fields _
theorem EncodeShape.rdParam : EncodeShape.Statement .rdParam := encode_fields _
theorem EncodeShape.wrParam (d : Word) : EncodeShape.Statement (.wrParam d) := encode_fields _
theorem EncodeShape.rdCrcAuxClr : EncodeShape.Statement .rdCrcAuxClr := encode_fields _
theorem EncodeShape.wrCrcAuxClr (d : Word) : EncodeShape.Statement (.wrCrcAuxClr d) := encode_fields _
theorem EncodeShape.rdCrcAuxData : EncodeShape.Statement .rdCrcAuxData := encode_fields _
theorem EncodeShape.wrCrcAuxData (d : Word) : EncodeShape.Statement (.wrCrcAuxData d) := encode_fields _
theorem EncodeShape.rdCrcAuxResult : EncodeShape.Statement .rdCrcAuxResult := encode_fields _
theorem EncodeShape.wrCrcAuxResult (d : Word) : EncodeShape.Statement (.wrCrcAuxResult d) := encode_fields _
theorem EncodeShape.rdBitTicks : EncodeShape.Statement .rdBitTicks := encode_fields _
theorem EncodeShape.wrBitTicks (d : Word) : EncodeShape.Statement (.wrBitTicks d) := encode_fields _
theorem EncodeShape.rdBuf (i : BitVec 9) : EncodeShape.Statement (.rdBuf i) := encode_fields _
theorem EncodeShape.wrBuf (i : BitVec 9) (d : Word) : EncodeShape.Statement (.wrBuf i d) := encode_fields _
theorem EncodeShape.rdUnmapped (a : Addr) : EncodeShape.Statement (.rdUnmapped a) := encode_fields _
theorem EncodeShape.wrUnmapped (a : Addr) (d : Word) : EncodeShape.Statement (.wrUnmapped a d) := encode_fields _

end Sys2Proof.Laws
end

