-- ==== Sys2Proof/Laws/Tick.lean ====
section
/-! SUPPORT. What each shared operation can do, once each: the outcomes, saturation, the units' parts of the tick, the two
forms of a host operation, and the step. -/

namespace Sys2Proof.Machine

/-! ## Outcomes -/

@[simp] theorem onNext_next (s : State) (f : State → State) : onNext (.next s) f = .next (f s) := rfl
@[simp] theorem onNext_fault (r : Fault) (f : State → State) : onNext (.fault r) f = .fault r := rfl
@[simp] theorem onNext_refused (r : Refusal) (f : State → State) : onNext (.refused r) f = .refused r := rfl

/-- `onNext` goes on exactly where its outcome does. -/
theorem onNext_eq_next {o : Result} {f : State → State} {t : State} :
    onNext o f = .next t ↔ ∃ u, o = .next u ∧ t = f u := by
  cases o <;> simp [eq_comm]

/-! ## Saturation -/

/-- `sat_w(v + 1)` as a number (R12). -/
theorem satSucc_toNat {w : Nat} (v : BitVec w) : (satSucc v).toNat = min (v.toNat + 1) (2 ^ w - 1) := by
  have hv := v.isLt
  have hw : 0 < 2 ^ w := Nat.two_pow_pos w
  unfold satSucc
  split
  · rename_i h
    change (v + 1#w).toNat = _
    rw [BitVec.toNat_add, BitVec.toNat_ofNat]
    cases w with
    | zero => simp at h
    | succ n =>
      have h1 : 1 < 2 ^ (n + 1) := Nat.one_lt_two_pow (by omega)
      rw [Nat.mod_eq_of_lt h1, Nat.mod_eq_of_lt h]
      omega
  · omega

/-- Below the greatest value, the saturating increment is an increment. -/
theorem satSucc_toNat_of_lt {w : Nat} {v : BitVec w} (h : v.toNat + 1 < 2 ^ w) : (satSucc v).toNat = v.toNat + 1 := by
  rw [satSucc_toNat]
  omega

/-! ## The detector -/

/-- Everything DET_PHASE can do (R79): a reset of the run, a counted high, lock, a counted low, or nothing. -/
theorem detPhase_cases (ph : Phase) (s : State) :
    (ph.cls = .short ∧ detPhase ph s = s.withDet (detShort s.det)) ∨
      (ph.cls = .valid ∧ ph.level = true ∧ s.det.expect = true ∧ lockTest s.params s.det = false ∧
        detPhase ph s = s.withDet (detHigh s.det)) ∨
      (ph.cls = .valid ∧ ph.level = true ∧ s.det.expect = true ∧ lockTest s.params s.det = true ∧
        detPhase ph s = lock (s.withDet (detHigh s.det))) ∨
      (ph.cls = .valid ∧ ph.level = false ∧ s.det.expect = false ∧ detPhase ph s = s.withDet (detLow s.det)) ∨
      (ph.cls = .valid ∧ ph.level ≠ s.det.expect ∧ detPhase ph s = s) := by
  obtain ⟨l, d, c⟩ := ph
  cases c
  · cases l <;> cases he : s.det.expect <;> cases hl : lockTest s.params s.det <;> simp [detPhase, he, hl]
  · simp [detPhase]

/-- The lock test as numbers (R81). -/
theorem lockTest_iff (p : Params) (d : Detector) :
    lockTest p d = true ↔ p.minTrain ≤ (satSucc d.hrun).toNat ∧ d.lrun.toNat + 1 = (satSucc d.hrun).toNat := by
  simp [lockTest]

/-- Everything the classifier's part of a SEEK tick can do (R68 to R71). -/
theorem classifyTick_cases (s : State) :
    (s.cls.haveLvl = false ∧ classifyTick s = s.withCls (clsFirst s.rx)) ∨
      (s.cls.haveLvl = true ∧ s.rx = s.cls.lvl ∧ classifyTick s = s.withCls (clsSame s.cls)) ∨
      (s.cls.haveLvl = true ∧ s.rx ≠ s.cls.lvl ∧ s.cls.pvalid = false ∧
        classifyTick s = s.withCls (clsEdge s.rx s.cls)) ∨
      (s.cls.haveLvl = true ∧ s.rx ≠ s.cls.lvl ∧ s.cls.pvalid = true ∧
        classifyTick s =
          detPhase ⟨s.cls.lvl, s.cls.plen, classify s.params s.cls.plen⟩ (s.withCls (clsEdge s.rx s.cls))) := by
  cases hh : s.cls.haveLvl
  · simp [classifyTick, hh]
  · by_cases hr : s.rx = s.cls.lvl
    · simp [classifyTick, hh, hr]
    · cases hp : s.cls.pvalid <;> simp [classifyTick, hh, hr, hp, deliveredPhase]

/-- The timeout test as numbers (R88). -/
theorem timeoutDue_iff (p : Params) (w : BitVec 32) :
    timeoutDue p w = true ↔ p.lockTimeout ≠ 0 ∧ p.lockTimeout ≤ w.toNat := by
  simp [timeoutDue]

/-- Everything TIMEOUT can do (R88): count the tick, and expire where a limit is reached and LOCK did not fire. -/
theorem timeoutTick_cases (s : State) :
    ((s.fsm = .locked ∨ timeoutDue s.params (satSucc s.det.wcnt) = false) ∧
        timeoutTick s = s.withDet { s.det with wcnt := satSucc s.det.wcnt }) ∨
      (s.fsm ≠ .locked ∧ timeoutDue s.params (satSucc s.det.wcnt) = true ∧
        timeoutTick s = finish .timeout 0 (s.withDet { s.det with wcnt := satSucc s.det.wcnt })) := by
  by_cases hf : s.fsm = .locked
  · exact .inl ⟨.inl hf, by simp [timeoutTick, hf]⟩
  · cases hd : timeoutDue s.params (satSucc s.det.wcnt)
    · exact .inl ⟨.inr rfl, by simp [timeoutTick, hd]⟩
    · exact .inr ⟨hf, rfl, by simp [timeoutTick, hd, hf]⟩

/-! ## The frame reader -/

/-- Everything a LOCKED tick can do (R90, R91): wait, take a bit, or take the eighth bit of a byte. -/
theorem lockedTick_cases (s : State) :
    (s.fr.tmr - 1 ≠ 0 ∧ lockedTick s = .next (s.withFr { s.fr with tmr := s.fr.tmr - 1 })) ∨
      (s.fr.tmr - 1 = 0 ∧ s.fr.bitcnt ≠ 7 ∧
        lockedTick s = .next (s.withFr { s.fr with
          tmr := BitVec.ofNat 17 s.params.bitTicks, shreg := shiftIn s.fr.shreg (sampleBit s),
          bitcnt := s.fr.bitcnt + 1 })) ∨
      (s.fr.tmr - 1 = 0 ∧ s.fr.bitcnt = 7 ∧
        lockedTick s = frByte s (shiftIn s.fr.shreg (sampleBit s)) (s.withFr { s.fr with
          tmr := BitVec.ofNat 17 s.params.bitTicks, shreg := shiftIn s.fr.shreg (sampleBit s), bitcnt := 0 })) := by
  by_cases ht : s.fr.tmr - 1 = 0
  · by_cases hb : s.fr.bitcnt = 7
    · right; right
      refine ⟨ht, hb, ?_⟩
      simp only [lockedTick, frSample, if_pos ht, if_pos hb]
      rfl
    · right; left
      refine ⟨ht, hb, ?_⟩
      simp only [lockedTick, frSample, if_pos ht, if_neg hb]
      rfl
  · exact .inl ⟨ht, by simp only [lockedTick, if_neg ht]⟩

/-- Everything FR_BYTE can do (R92): store the byte, count it, update the inline CRC and run the gate; it stops only where
the byte falls outside the buffer. -/
theorem frByte_cases (s : State) (v : Byte) (t : State) :
    (s.fr.idx.toNat < t.params.cap ∧
      frByte s v t = .next (byteGate s s.fr.idx.toNat v
        ((t.withBuf (Memory.set t.buf s.fr.idx.toNat v)).withFr
          { t.fr with idx := s.fr.idx + 1, crc := inlineCrc s.fr s.fr.idx.toNat v }))) ∨
      (¬ s.fr.idx.toNat < t.params.cap ∧ frByte s v t = .fault .bufWriteOutsideBuffer) := by
  rcases bufWrite_cases t s.fr.idx.toNat v with ⟨h, e⟩ | ⟨h, e⟩
  · exact .inl ⟨h, by simp [frByte, e]⟩
  · exact .inr ⟨h, by simp [frByte, e]⟩

/-- Everything a byte's gate can do (R92 to R95). -/
theorem byteGate_cases (s : State) (i : Nat) (v : Byte) (t : State) :
    (i = 1 ∧ byteGate s i v t = syncGate s v t) ∨ (i = 2 ∧ byteGate s i v t = lenGate s v t) ∨
      (3 ≤ i ∧ i = s.fr.len.toNat + 4 ∧ byteGate s i v t = frameEnd s v t) ∨
      (i ≠ 1 ∧ i ≠ 2 ∧ ¬ (3 ≤ i ∧ i = s.fr.len.toNat + 4) ∧ byteGate s i v t = t) := by
  unfold byteGate
  by_cases h1 : i = 1
  · simp [h1]
  · by_cases h2 : i = 2
    · simp [h2]
    · by_cases h3 : 3 ≤ i ∧ i = s.fr.len.toNat + 4
      · right; right; left
        exact ⟨h3.1, h3.2, by rw [if_neg h1, if_neg h2, if_pos h3]⟩
      · right; right; right
        exact ⟨h1, h2, h3, by rw [if_neg h1, if_neg h2, if_neg h3]⟩

/-! ## The tick step -/

theorem tickStep_idle {s : State} (h : s.fsm = .idle) : tickStep s = .next s := by simp [tickStep, h]
theorem tickStep_seek {s : State} (h : s.fsm = .seek) : tickStep s = .next (seekTick s) := by simp [tickStep, h]
theorem tickStep_locked {s : State} (h : s.fsm = .locked) : tickStep s = lockedTick s := by simp [tickStep, h]

/-- A LOCKED tick stops only where it would store a byte outside the buffer. -/
theorem lockedTick_goes_on {s : State} (h : s.fr.idx.toNat < s.params.cap) : ∃ t, lockedTick s = .next t := by
  rcases lockedTick_cases s with ⟨-, e⟩ | ⟨-, -, e⟩ | ⟨-, -, e⟩
  · exact ⟨_, e⟩
  · exact ⟨_, e⟩
  · rcases frByte_cases s (shiftIn s.fr.shreg (sampleBit s)) (s.withFr { s.fr with
        tmr := BitVec.ofNat 17 s.params.bitTicks, shreg := shiftIn s.fr.shreg (sampleBit s), bitcnt := 0 }) with
      ⟨-, e'⟩ | ⟨hn, -⟩
    · exact ⟨_, e.trans e'⟩
    · exact absurd h hn

/-- The tick step goes on wherever the buffer has room for the byte it may store. -/
theorem tickStep_goes_on {s : State} (h : s.BufRoom) : ∃ t, tickStep s = .next t := by
  cases hf : s.fsm
  · exact ⟨s, tickStep_idle hf⟩
  · exact ⟨_, tickStep_seek hf⟩
  · rw [tickStep_locked hf]
    exact lockedTick_goes_on (h hf)

/-! ## The limit of the search -/

/-- Everything the end of a SEEK tick can do: keep what the classifier and the detector left, or end the attempt by TIMEOUT. -/
theorem orTimeout_cases (s t : State) :
    (s.WithinLimit ∧ s.orTimeout t = t) ∨ (¬ s.WithinLimit ∧ s.orTimeout t = finish .timeout 0 t) := by
  by_cases h : s.WithinLimit
  · exact .inl ⟨h, if_pos h⟩
  · exact .inr ⟨h, if_neg h⟩

/-- The timeout test on the new SEEK count is the limit of `State.WithinLimit`. -/
theorem timeoutDue_false_iff (s : State) : timeoutDue s.params (satSucc s.det.wcnt) = false ↔ s.WithinLimit := by
  rw [Bool.eq_false_iff, ne_eq, timeoutDue_iff, satSucc_toNat]
  unfold State.WithinLimit State.searchTicks
  omega

/-- A SEEK tick that does not lock: what the classifier and the detector leave, the tick counted, and the limit. -/
theorem tickStep_orTimeout {s u : State} (hf : s.fsm = .seek) (hc : classifyTick s = u) (hp : u.params = s.params)
    (hw : u.det.wcnt = s.det.wcnt) (hu : u.fsm ≠ .locked) :
    tickStep s = .next (s.orTimeout (u.withDet { u.det with wcnt := satSucc s.det.wcnt })) := by
  rw [tickStep_seek hf, seekTick, hc]
  rcases timeoutTick_cases u with ⟨h, e⟩ | ⟨-, h, e⟩ <;> rw [hp, hw] at h
  · have hl := (timeoutDue_false_iff s).1 (h.resolve_left hu)
    rw [e, hw, State.orTimeout, if_pos hl]
  · have hl : ¬ s.WithinLimit := fun hl => by rw [(timeoutDue_false_iff s).2 hl] at h; cases h
    rw [e, hw, State.orTimeout, if_neg hl]
    rfl

/-! ## Host operations -/

theorem hostRead_of_tick {s t : State} (h : tickStep s = .next t) (v : Word) : hostRead v s = .next (t.withRdata v) := by
  simp [hostRead, h]

theorem hostWrite_of_tick {s t : State} (h : tickStep s = .next t) (f : State → State) :
    hostWrite f s = .next ((f t).withRdata 0x0000) := by
  simp [hostWrite, h]

theorem ignoredWrite_of_tick {s t : State} (h : tickStep s = .next t) :
    ignoredWrite s = .next (t.withRdata 0x0000) := by
  simp [ignoredWrite, hostWrite, h]

theorem quietTick_of_tick {s t : State} (h : tickStep s = .next t) : quietTick s = .next (t.withRdata 0x0000) := by
  simp [quietTick, h]

/-- What a host operation may do to the state `u` that the tick step of `s` produced, `rdata` apart (R60): nothing, begin an
attempt or set a configuration register while IDLE, or set AUX. -/
inductive HostEffect (s u : State) : State → Prop where
  | nothing : HostEffect s u u
  | start (h : s.fsm = .idle) : HostEffect s u (beginAttempt u)
  | syncWord (h : s.fsm = .idle) (d : Word) : HostEffect s u (u.withSyncWord d)
  | pol (h : s.fsm = .idle) (p : Level) : HostEffect s u (u.withPol p)
  | aux (a : Word) : HostEffect s u (u.withAux a)

theorem hostRead_effect {v : Word} {s t : State} (h : hostRead v s = .next t) :
    ∃ u w r, tickStep s = .next u ∧ HostEffect s u w ∧ t = w.withRdata r := by
  obtain ⟨u, hu, rfl⟩ := onNext_eq_next.1 h
  exact ⟨u, u, v, hu, .nothing, rfl⟩

theorem hostWrite_effect {f : State → State} {s t : State} (h : hostWrite f s = .next t)
    (hf : ∀ u, HostEffect s u (f u)) : ∃ u w r, tickStep s = .next u ∧ HostEffect s u w ∧ t = w.withRdata r := by
  obtain ⟨u, hu, rfl⟩ := onNext_eq_next.1 h
  exact ⟨u, f u, 0x0000, hu, hf u, rfl⟩

/-- Everything a request's tick can do, when it goes on: the tick step, then one of five effects, and a value on
`rdata`. -/
theorem exec_effect {i : Instr} {s t : State} (h : exec i s = .next t) :
    ∃ u w r, tickStep s = .next u ∧ HostEffect s u w ∧ t = w.withRdata r := by
  cases i with
  | wrCtrl d =>
    refine hostWrite_effect h fun u => ?_
    split
    · rename_i hs
      exact .start hs.2
    · exact .nothing
  | wrSyncWord d =>
    refine hostWrite_effect h fun u => ?_
    split
    · rename_i hs
      exact .syncWord hs d
    · exact .nothing
  | wrConfig d =>
    refine hostWrite_effect h fun u => ?_
    split
    · rename_i hs
      exact .pol hs (polBit d)
    · exact .nothing
  | wrCrcAuxClr d =>
    refine hostWrite_effect h fun u => ?_
    split
    · exact .aux 0x0000
    · exact .nothing
  | wrCrcAuxData d => exact hostWrite_effect h fun u => .aux (crcUpdate s.aux (auxByte d))
  | rdCtrl | rdStatus | rdCount | rdCrcCalc | rdCrcRx | rdSyncWord | rdConfig | rdIdx | rdLen | rdParam | rdCrcAuxClr
  | rdCrcAuxData | rdCrcAuxResult | rdBitTicks | rdBuf _ | rdUnmapped _ => exact hostRead_effect h
  | wrStatus _ | wrCount _ | wrCrcCalc _ | wrCrcRx _ | wrIdx _ | wrLen _ | wrParam _ | wrCrcAuxResult _ | wrBitTicks _
  | wrBuf _ _ | wrUnmapped _ _ => exact hostWrite_effect h fun u => .nothing

/-- Everything a step can do, when it goes on: reset, or the tick step with one of the effects a request may have. -/
theorem step_cases {s t : State} (h : step s = .next t) :
    (s.pins.rst = true ∧ t = (resetState s).advance) ∨
      (s.pins.rst = false ∧ ∃ u w r, tickStep s = .next u ∧ HostEffect s u w ∧ t = (w.withRdata r).advance) := by
  unfold step at h
  cases hr : s.pins.rst
  · right
    refine ⟨rfl, ?_⟩
    rw [hr, if_neg (by simp)] at h
    split at h
    · obtain ⟨x, hx, rfl⟩ := onNext_eq_next.1 h
      obtain ⟨u, w, r, hu, he, rfl⟩ := exec_effect hx
      exact ⟨u, w, r, hu, he, rfl⟩
    · obtain ⟨x, hx, rfl⟩ := onNext_eq_next.1 h
      obtain ⟨u, hu, rfl⟩ := onNext_eq_next.1 hx
      exact ⟨u, u, 0x0000, hu, .nothing, rfl⟩
  · left
    rw [hr, if_pos rfl] at h
    cases h
    exact ⟨rfl, rfl⟩

end Sys2Proof.Machine
end

