-- ==== Sys2Proof/Tests/Slice0.lean ====
section
/-! SUPPORT. Tests. Every expected value is one of spec/95_test_vectors.md (named in the docstring), of an example of the rule
named, or worked out by hand from it. The last part shows that the hypotheses of the statements can be met. -/

namespace Sys2Proof.Tests

open Sys2Proof Sys2Proof.Machine

/-! ## Helpers -/

/-- The parameters of the vectors (95_test_vectors.md section 1). -/
def vec : Params :=
  { bitTicks := 2000, minTrain := 8, maxDataLen := 32, lockTimeout := 0, tickUsNum := 1, tickUsDen := 1 }

/-- The parameters of the detector's vectors: `BIT_TICKS` 16. -/
def vec16 : Params := { vec with bitTicks := 16 }

/-- The smallest elaboration: `BIT_TICKS` 8, one training high, an empty payload. -/
def tiny : Params := { vec with bitTicks := 8, minTrain := 1, maxDataLen := 0 }

/-- A tick without a request. -/
def quietPins (rx : Level) : Pins := { rst := false, rx := rx, reqValid := false, req := 0 }

/-- A tick with a request, the line low. -/
def reqPins (q : ReqWord) : Pins := { rst := false, rx := false, reqValid := true, req := q }

/-- The reset state of an elaboration, the line low in the coming tick. -/
def idleOf (p : Params) : State := { State.reset with params := p, inputs := [quietPins false] }

/-- The state that START leaves. -/
def seekOf (p : Params) : State := beginAttempt (idleOf p)

/-- A search in which a phase of level `lvl` and length `plen` is in progress, its start seen, with the runs and the level
expected next; the coming sample ends the phase. -/
def phaseOf (p : Params) (lvl : Level) (plen : BitVec 16) (h l : BitVec 4) (expect : Level) : State :=
  { seekOf p with
    cls := { haveLvl := true, lvl := lvl, plen := plen, pvalid := true }
    det := { expect := expect, hrun := h, lrun := l, wcnt := 0 }
    inputs := [quietPins (!lvl)] }

/-- The state that LOCK leaves, with `POL` 0 and the line high in the coming tick. -/
def lockedOf (p : Params) : State :=
  { lock (phaseOf p true 0 0 0 false) with
    det := { expect := false, hrun := BitVec.ofNat 4 p.minTrain, lrun := BitVec.ofNat 4 (p.minTrain - 1), wcnt := 0 }
    inputs := [quietPins true] }

/-- LOCKED, with the last bit of byte `idx` due in the coming tick: the bits before it are `bits`, the bytes before it `bs`,
and the line shows `rx`. -/
def byteOf (p : Params) (bs : List Byte) (bits : Byte) (len : Byte) (rx : Level) : State :=
  { lockedOf p with
    fr := { tmr := 1, shreg := bits, bitcnt := 7, idx := BitVec.ofNat 9 bs.length, len := len,
            crc := crcFold 0 (bs.take (len.toNat + 3)) }
    buf := (List.range bs.length).zip bs
    inputs := [quietPins rx] }

/-- The state an outcome goes on with. -/
def after (o : Result) : Option State :=
  match o with
  | .next s => some s
  | .fault _ => none
  | .refused _ => none

theorem goes_on {o : Result} (h : (after o).isSome = true) : ∃ t, o = .next t := by
  cases o with
  | next s => exact ⟨s, rfl⟩
  | fault r => cases h
  | refused r => cases h

/-- What a request's tick drives on `rdata` (R16). -/
def rdataOf (i : Instr) (s : State) : Option Word := (after (exec i s)).map fun t => t.rdata

/-- STATUS after a tick. -/
def statusAfter (o : Result) : Option Word := (after o).map statusWord

/-! ## WellFormed: the address of an unmapped access (R30, R143, R144) -/

theorem test_wf_refuses_unmapped_read_of_register : (Instr.rdUnmapped 0x001).wellFormed = false := by decide
theorem test_wf_refuses_unmapped_read_of_last_register : (Instr.rdUnmapped 0x00D).wellFormed = false := by decide
theorem test_wf_refuses_unmapped_read_of_window : (Instr.rdUnmapped 0x200).wellFormed = false := by decide
theorem test_wf_refuses_unmapped_write_of_register : (Instr.wrUnmapped 0x000 0x1234).wellFormed = false := by decide
theorem test_wf_refuses_unmapped_write_of_window : (Instr.wrUnmapped 0x3FF 0x0000).wellFormed = false := by decide
theorem test_wf_takes_unmapped_bounds :
    (Instr.rdUnmapped 0x00E).wellFormed = true ∧ (Instr.rdUnmapped 0x1FF).wellFormed = true ∧
      (Instr.wrUnmapped 0x400 0).wellFormed = true ∧ (Instr.wrUnmapped 0xFFF 0).wellFormed = true := by decide

/-! ## Decoding: the request words of V-OP-1 to V-OP-36 -/

theorem test_decode_rdCtrl : decode 0x00000000 = .rdCtrl := by decide
theorem test_decode_wrCtrl : decode 0x80000001 = .wrCtrl 0x0001 := by decide
theorem test_decode_rdStatus : decode 0x00010000 = .rdStatus := by decide
theorem test_decode_wrStatus : decode 0x8001FFFF = .wrStatus 0xFFFF := by decide
theorem test_decode_rdCount : decode 0x00020000 = .rdCount := by decide
theorem test_decode_wrCount : decode 0x80020009 = .wrCount 0x0009 := by decide
theorem test_decode_rdCrcCalc : decode 0x00030000 = .rdCrcCalc := by decide
theorem test_decode_wrCrcCalc : decode 0x8003FFFF = .wrCrcCalc 0xFFFF := by decide
theorem test_decode_rdCrcRx : decode 0x00040000 = .rdCrcRx := by decide
theorem test_decode_wrCrcRx : decode 0x80041234 = .wrCrcRx 0x1234 := by decide
theorem test_decode_rdSyncWord : decode 0x00050000 = .rdSyncWord := by decide
theorem test_decode_wrSyncWord : decode 0x80052DD4 = .wrSyncWord 0x2DD4 := by decide
theorem test_decode_rdConfig : decode 0x00060000 = .rdConfig := by decide
theorem test_decode_wrConfig : decode 0x80060001 = .wrConfig 0x0001 := by decide
theorem test_decode_rdIdx : decode 0x00070000 = .rdIdx := by decide
theorem test_decode_wrIdx : decode 0x80070000 = .wrIdx 0x0000 := by decide
theorem test_decode_rdLen : decode 0x00080000 = .rdLen := by decide
theorem test_decode_wrLen : decode 0x80080003 = .wrLen 0x0003 := by decide
theorem test_decode_rdParam : decode 0x00090000 = .rdParam := by decide
theorem test_decode_wrParam : decode 0x80090000 = .wrParam 0x0000 := by decide
theorem test_decode_rdCrcAuxClr : decode 0x000A0000 = .rdCrcAuxClr := by decide
theorem test_decode_wrCrcAuxClr : decode 0x800A0001 = .wrCrcAuxClr 0x0001 := by decide
theorem test_decode_rdCrcAuxData : decode 0x000B0000 = .rdCrcAuxData := by decide
theorem test_decode_wrCrcAuxData : decode 0x800B0045 = .wrCrcAuxData 0x0045 := by decide
theorem test_decode_rdCrcAuxResult : decode 0x000C0000 = .rdCrcAuxResult := by decide
theorem test_decode_wrCrcAuxResult : decode 0x800C0000 = .wrCrcAuxResult 0x0000 := by decide
theorem test_decode_rdBitTicks : decode 0x000D0000 = .rdBitTicks := by decide
theorem test_decode_wrBitTicks : decode 0x800D03E8 = .wrBitTicks 0x03E8 := by decide
theorem test_decode_rdBuf : decode 0x02240000 = .rdBuf 36 ∧ decode 0x03FF0000 = .rdBuf 511 := by decide
theorem test_decode_wrBuf : decode 0x820000FF = .wrBuf 0 0x00FF := by decide
theorem test_decode_rdUnmapped :
    decode 0x000E0000 = .rdUnmapped 0x00E ∧ decode 0x01FF0000 = .rdUnmapped 0x1FF ∧
      decode 0x04000000 = .rdUnmapped 0x400 ∧ decode 0x0FFF0000 = .rdUnmapped 0xFFF := by decide
theorem test_decode_wrUnmapped : decode 0x81000001 = .wrUnmapped 0x100 0x0001 := by decide
/-- V-OP-36: RSV is ignored. -/
theorem test_decode_ignores_rsv : decode 0x70010000 = .rdStatus := by decide
/-- R66: what the assembler writes for START and for `RD BUF[3]`. -/
theorem test_encode_words : encode (.wrCtrl 0x0001) = 0x80000001 ∧ encode (.rdBuf 3) = 0x02030000 := by decide
/-- R60: the bits of a row as the table gives them. -/
theorem test_table_words :
    decodeTableWord 32 0x80000000 = some (.wrCtrl 0) ∧ decodeTableWord 40 0 = none := by decide

/-! ## One tick of each operation: V-OP-1 to V-OP-35 -/

theorem test_rdCtrl : rdataOf .rdCtrl (idleOf vec) = some 0x0000 := by decide
theorem test_wrCtrl_start : statusAfter (exec (.wrCtrl 0x0001) (idleOf vec)) = some 0x0005 := by decide
theorem test_wrCtrl_without_start_bit : statusAfter (exec (.wrCtrl 0xFFFE) (idleOf vec)) = some 0x0000 := by decide
theorem test_rdStatus : rdataOf .rdStatus (idleOf vec) = some 0x0000 := by decide
/-- S-P5 after tick 109: 7 highs, 6 lows, a low expected. -/
theorem test_rdStatus_seeking : rdataOf .rdStatus (phaseOf vec16 true 8 7 6 false) = some 0x6709 := by decide
theorem test_wrStatus : statusAfter (exec (.wrStatus 0xFFFF) (idleOf vec)) = some 0x0000 := by decide
theorem test_rdCount : rdataOf .rdCount (finish .ok 260 (idleOf vec)) = some 0x0104 := by decide
theorem test_wrCount : (after (exec (.wrCount 0x0009) (idleOf vec))).map (fun t => t.res.count) = some 0 := by decide
theorem test_rdCrcCalc : rdataOf .rdCrcCalc ((idleOf vec).withRes { ResultRegs.cleared with crcCalc := 0xD0D2 })
    = some 0xD0D2 := by decide
theorem test_wrCrcCalc :
    (after (exec (.wrCrcCalc 0xFFFF) (idleOf vec))).map (fun t => t.res.crcCalc) = some 0x0000 := by decide
theorem test_rdCrcRx : rdataOf .rdCrcRx ((idleOf vec).withRes { ResultRegs.cleared with crcRx := 0x1013 })
    = some 0x1013 := by decide
theorem test_wrCrcRx :
    (after (exec (.wrCrcRx 0x1234) (idleOf vec))).map (fun t => t.res.crcRx) = some 0x0000 := by decide
theorem test_rdSyncWord : rdataOf .rdSyncWord (idleOf vec) = some 0x5AA5 := by decide
theorem test_wrSyncWord :
    (after (exec (.wrSyncWord 0x2DD4) (idleOf vec))).map (fun t => (t.syncWord, t.rdata)) = some (0x2DD4, 0) := by decide
theorem test_wrSyncWord_busy :
    (after (exec (.wrSyncWord 0x1234) (seekOf vec))).map (fun t => t.syncWord) = some 0x5AA5 := by decide
theorem test_rdConfig : rdataOf .rdConfig ((idleOf vec).withPol true) = some 0x0001 := by decide
theorem test_wrConfig : (after (exec (.wrConfig 0x0001) (idleOf vec))).map (fun t => t.pol) = some true := by decide
theorem test_wrConfig_busy : (after (exec (.wrConfig 0x0001) (seekOf vec))).map (fun t => t.pol) = some false := by decide
/-- PROG-2 at tick 35252 and 131259: IDX. -/
theorem test_rdIdx : rdataOf .rdIdx (byteOf vec [0x5A] 0x52 0 true) = some 0x0001 := by decide
theorem test_wrIdx :
    (after (exec (.wrIdx 0x0000) (byteOf vec [0x5A] 0x52 0 true))).map (fun t => t.fr.idx) = some 2 := by decide
theorem test_rdLen : rdataOf .rdLen (byteOf vec [0x5A, 0xA5, 0x02] 0 2 true) = some 0x0002 := by decide
theorem test_wrLen : (after (exec (.wrLen 0x0003) (idleOf vec))).map (fun t => t.fr.len) = some 0 := by decide
theorem test_rdParam : rdataOf .rdParam (idleOf vec) = some 0x0820 := by decide
theorem test_wrParam : (after (exec (.wrParam 0x0000) (idleOf vec))).map (fun t => paramWord t.params) = some 0x0820 := by
  decide
theorem test_rdCrcAuxClr : rdataOf .rdCrcAuxClr ((idleOf vec).withAux 0x83CF) = some 0x0000 := by decide
theorem test_wrCrcAuxClr :
    (after (exec (.wrCrcAuxClr 0x0001) ((idleOf vec).withAux 0x83CF))).map (fun t => t.aux) = some 0x0000 := by decide
theorem test_wrCrcAuxClr_bit0_clear :
    (after (exec (.wrCrcAuxClr 0xFFFE) ((idleOf vec).withAux 0x83CF))).map (fun t => t.aux) = some 0x83CF := by decide
theorem test_rdCrcAuxData : rdataOf .rdCrcAuxData ((idleOf vec).withAux 0x83CF) = some 0x0000 := by decide
/-- V-AUX-2 and V-OP-25: only the low byte is fed. -/
theorem test_wrCrcAuxData :
    (after (exec (.wrCrcAuxData 0x1245) (seekOf vec))).map (fun t => t.aux) = some 0x83CF := by decide
theorem test_rdCrcAuxResult : rdataOf .rdCrcAuxResult ((idleOf vec).withAux 0x83CF) = some 0x0C3E := by decide
theorem test_rdCrcAuxResult_after_reset : rdataOf .rdCrcAuxResult (idleOf vec) = some 0xFFFF := by decide
theorem test_wrCrcAuxResult :
    (after (exec (.wrCrcAuxResult 0x0000) ((idleOf vec).withAux 0x83CF))).map (fun t => t.aux) = some 0x83CF := by decide
theorem test_rdBitTicks : rdataOf .rdBitTicks (idleOf vec) = some 0x07D0 := by decide
theorem test_wrBitTicks :
    (after (exec (.wrBitTicks 0x03E8) (idleOf vec))).map (fun t => t.params.bitTicks) = some 2000 := by decide
/-- PROG-2: `RD BUF[3]` of the "Hi" frame. -/
theorem test_rdBuf :
    rdataOf (.rdBuf 3) ((idleOf vec).withBuf [(0, 0x5A), (1, 0xA5), (2, 0x02), (3, 0x48)]) = some 0x0048 := by decide
/-- V-OP-31, V-OP-32: at or above `CAP`. -/
theorem test_rdBuf_above_capacity :
    rdataOf (.rdBuf 37) (idleOf vec) = some 0x0000 ∧ rdataOf (.rdBuf 511) (idleOf vec) = some 0x0000 := by decide
theorem test_wrBuf :
    (after (exec (.wrBuf 0 0x00FF) ((idleOf vec).withBuf [(0, 0x5A)]))).map (fun t => bufRead t 0) = some 0x5A := by decide
theorem test_rdUnmapped : rdataOf (.rdUnmapped 0x00E) (idleOf vec) = some 0x0000 := by decide
theorem test_wrUnmapped :
    after (exec (.wrUnmapped 0x100 0x0001) (idleOf vec)) = some (idleOf vec) := by decide

/-! ## The units -/

/-- V-CLS-1 to V-CLS-8: the 75% threshold on either side. -/
theorem test_classify_bounds :
    classify vec 749 = .short ∧ classify vec 750 = .valid ∧ classify { vec with bitTicks := 2002 } 750 = .short ∧
      classify { vec with bitTicks := 2002 } 751 = .valid ∧ classify tiny 2 = .short ∧ classify tiny 3 = .valid ∧
      classify vec16 5 = .short ∧ classify vec16 6 = .valid := by decide
/-- R72: a long phase saturates. -/
theorem test_phase_length_saturates : (clsSame (clsFirst true)).plen = 2 ∧
    (clsSame ⟨true, true, 65535, true⟩).plen = 65535 := by decide
/-- S-P5, ticks 13, 21, 117 and 125, by the STATUS each leaves. -/
theorem test_training_run :
    statusAfter (quietTick (phaseOf vec16 true 8 0 0 true)) = some 0x0109 ∧
      statusAfter (quietTick (phaseOf vec16 false 8 1 0 false)) = some 0x1105 ∧
      statusAfter (quietTick (phaseOf vec16 false 8 7 6 false)) = some 0x7705 ∧
      statusAfter (quietTick (phaseOf vec16 true 8 7 7 true)) = some 0x780D := by decide
/-- S-P5, tick 125: LOCK arms the bit timer with 18. -/
theorem test_lock_arms_timer : (after (quietTick (phaseOf vec16 true 8 7 7 true))).map (fun t => t.fr.tmr) = some 18 := by
  decide
/-- V-DET-3: a low of 5 ticks resets the run. -/
theorem test_short_low_resets : statusAfter (quietTick (phaseOf vec16 false 5 7 6 false)) = some 0x0005 := by decide
/-- V-DET-5: the tick that reaches `LOCK_TIMEOUT`. -/
theorem test_timeout :
    statusAfter (quietTick { seekOf { vec with lockTimeout := 5000 } with
      det := { expect := true, hrun := 0, lrun := 0, wcnt := 4999 } }) = some 0x0052 := by decide
/-- V-DET-6: the tick that times out keeps the runs, and its classifier has run. -/
theorem test_timeout_keeps_runs :
    statusAfter (quietTick { phaseOf { vec with lockTimeout := 19000 } true 999 7 7 true with
        det := { expect := true, hrun := 7, lrun := 7, wcnt := 18999 }, inputs := [quietPins true] }) = some 0x7752 ∧
      (after (quietTick { phaseOf { vec with lockTimeout := 19000 } true 999 7 7 true with
        det := { expect := true, hrun := 7, lrun := 7, wcnt := 18999 }, inputs := [quietPins true] })).map
        (fun t => t.cls.plen) = some 1000 := by decide
/-- V-DET-7: lock and timeout fall due together, and lock wins. -/
theorem test_lock_beats_timeout :
    statusAfter (quietTick { phaseOf { vec with lockTimeout := 19001 } true 1000 7 7 true with
      det := { expect := true, hrun := 7, lrun := 7, wcnt := 19000 } }) = some 0x780D := by decide
/-- R91: with POL 0 a high sample shifts in a 0, a low one a 1. -/
theorem test_sample_polarity :
    (after (quietTick { lockedOf vec with fr := { FrameReader.cleared with tmr := 1, shreg := 0x02 } })).map
        (fun t => t.fr.shreg) = some 0x04 ∧
      (after (quietTick { lockedOf vec with
        fr := { FrameReader.cleared with tmr := 1, shreg := 0x02 }, inputs := [quietPins false] })).map
        (fun t => t.fr.shreg) = some 0x05 := by decide
/-- S-P2: the second byte 0xA4 fails the sync gate; 0xA5 passes. -/
theorem test_sync_gate :
    (after (quietTick (byteOf vec [0x5A] 0x52 0 true))).map (fun t => (t.fsm, t.res.result, t.fr.idx, bufRead t 1))
        = some (.idle, .syncMismatch, 2, 0xA4) ∧
      (after (quietTick (byteOf vec [0x5A] 0x52 0 false))).map (fun t => (t.fsm, t.res.result, t.fr.idx, bufRead t 1))
        = some (.locked, .none, 2, 0xA5) := by decide
/-- S-P6: length 0x21 is too long, 0x20 is not. -/
theorem test_length_gate :
    (after (quietTick (byteOf vec [0x5A, 0xA5] 0x10 0 false))).map (fun t => (t.fsm, t.res.result, t.fr.len, t.fr.idx))
        = some (.idle, .lengthOverflow, 0x21, 3) ∧
      (after (quietTick (byteOf vec [0x5A, 0xA5] 0x10 0 true))).map (fun t => (t.fsm, t.res.result, t.fr.len, t.fr.idx))
        = some (.locked, .none, 0x20, 3) := by decide
/-- S-SCEN: the last byte of the "Hi" frame, and the same with its last bit wrong. -/
theorem test_frame_end :
    (after (quietTick (byteOf vec [0x5A, 0xA5, 0x02, 0x48, 0x69, 0xD0] 0x69 2 true))).map
        (fun t => (t.res.result, t.res.count, t.res.crcCalc, t.res.crcRx)) = some (.ok, 7, 0xD0D2, 0xD0D2) ∧
      (after (quietTick (byteOf vec [0x5A, 0xA5, 0x02, 0x48, 0x69, 0xD0] 0x69 2 false))).map
        (fun t => (t.res.result, t.res.count, t.res.crcCalc, t.res.crcRx))
        = some (.crcMismatch, 7, 0xD0D2, 0xD0D3) := by decide +kernel
/-- V-CRC-1, 5, 9, 10 and 15. -/
theorem test_crc16 :
    crc16 [] = 0xFFFF ∧ crc16 [0x45, 0x00] = 0x6FCD ∧
      crc16 [0x31, 0x32, 0x33, 0x34, 0x35, 0x36, 0x37, 0x38, 0x39] = 0x44C2 ∧
      crc16 [0x5A, 0xA5, 0x02, 0x48, 0x69] = 0xD0D2 ∧
      crc16 [0x5A, 0xA5, 0x05, 0x01, 0x02, 0x03, 0x04, 0x05] = 0x5881 := by decide +kernel
/-- R160: a tick with `rst` high keeps the buffer and discards the request of its tick. -/
theorem test_reset_tick :
    (after (step { byteOf vec [0x5A] 0x52 0 true with
      inputs := [{ rst := true, rx := true, reqValid := true, req := 0x80000001 }] })).map
        (fun t => (t.fsm, t.fr.idx, bufRead t 0, t.rdata)) = some (.idle, 0, 0x5A, 0) := by decide
/-- PROG-2: one step from reset with START on the port. -/
theorem test_step_runs_start :
    (after (step ((idleOf vec).withFetchWord 32 0x80000001))).map (fun t => (t.fsm, t.tick)) = some (.seek, 1) := by decide
/-- The buffer of the reset state has its canonical form. -/
theorem test_reset_buffer_wf : Memory.wf State.reset.buf = true := by decide

/-! ## The hypotheses of the statements can be met

Each theorem is named after the statement of Obligations.lean whose hypotheses it meets. -/

/-- The state of a legal elaboration at each end of the ranges of R9. -/
def largest : Params :=
  { bitTicks := 32768, minTrain := 15, maxDataLen := 255, lockTimeout := 2 ^ 32 - 1, tickUsNum := 1, tickUsDen := 1 }

theorem witness_legal : vec.Legal ∧ vec16.Legal ∧ tiny.Legal ∧ largest.Legal := by decide

/-! ### States that satisfy the invariant -/

theorem bufOk_nil {p : Params} : Memory.wf [] = true ∧ Memory.Below [] p.cap :=
  ⟨rfl, fun _ h => absurd h (by simp)⟩

theorem inv_idle (p : Params) (hp : p.Legal) (q : List Pins) : State.Inv { idleOf p with inputs := q } where
  legal := hp
  bufWf := rfl
  bufBelow := fun _ h => absurd h (by simp [idleOf, State.reset])
  idleOk := fun _ => rfl
  seekOk := fun h => absurd h (by simp [idleOf, State.reset])
  lockedOk := fun h => absurd h (by simp [idleOf, State.reset])

theorem inv_fresh_search (p : Params) (hp : p.Legal) (q : List Pins) : State.Inv { seekOf p with inputs := q } where
  legal := hp
  bufWf := rfl
  bufBelow := fun _ h => absurd h (by simp [seekOf, beginAttempt, idleOf, State.reset])
  idleOk := fun h => absurd h (by simp [seekOf, beginAttempt])
  seekOk := fun _ =>
    { inStep := fun _ => rfl
      oneAhead := fun h => absurd h (by simp [seekOf, beginAttempt, Detector.cleared])
      belowTrain := by
        have := hp.2.2.1
        simp only [seekOf, beginAttempt, Detector.cleared, idleOf]
        exact this
      belowLimit := fun h => Nat.pos_of_ne_zero h
      firstSample := fun _ => rfl
      phaseBegun := fun h => absurd h (by simp [seekOf, beginAttempt, Classifier.cleared])
      nothingRead := rfl
      noResult := rfl }
  lockedOk := fun h => absurd h (by simp [seekOf, beginAttempt])

/-- S-P5 before tick 125: the eighth high is about to end. -/
theorem inv_last_high : State.Inv (phaseOf vec16 true 8 7 7 true) where
  legal := by decide
  bufWf := rfl
  bufBelow := fun _ h => absurd h (by simp [phaseOf, seekOf, beginAttempt, idleOf, State.reset])
  idleOk := fun h => absurd h (by decide)
  seekOk := fun _ =>
    { inStep := by decide
      oneAhead := by decide
      belowTrain := by decide
      belowLimit := by decide
      firstSample := by decide
      phaseBegun := by decide
      nothingRead := rfl
      noResult := rfl }
  lockedOk := fun h => absurd h (by decide)

/-- A low ends while a high is expected, three of each counted. -/
theorem inv_low_while_high_expected : State.Inv (phaseOf vec16 false 8 3 3 true) where
  legal := by decide
  bufWf := rfl
  bufBelow := fun _ h => absurd h (by simp [phaseOf, seekOf, beginAttempt, idleOf, State.reset])
  idleOk := fun h => absurd h (by decide)
  seekOk := fun _ =>
    { inStep := by decide
      oneAhead := by decide
      belowTrain := by decide
      belowLimit := by decide
      firstSample := by decide
      phaseBegun := by decide
      nothingRead := rfl
      noResult := rfl }
  lockedOk := fun h => absurd h (by decide)

/-- The state that LOCK leaves in the smallest elaboration, whatever the line shows. -/
theorem inv_just_locked (q : List Pins) : State.Inv { lockedOf tiny with inputs := q } where
  legal := (by decide : (lockedOf tiny).params.Legal)
  bufWf := rfl
  bufBelow := fun _ h => absurd h (by
    simp [lockedOf, lock, State.withFsm, State.withFr, phaseOf, seekOf, beginAttempt, idleOf, State.reset])
  idleOk := fun h => absurd h (by simp [lockedOf, lock, State.withFsm, State.withFr])
  seekOk := fun h => absurd h (by simp [lockedOf, lock, State.withFsm, State.withFr])
  lockedOk := fun _ =>
    { runs := (by decide : (lockedOf tiny).det.hrun.toNat = (lockedOf tiny).params.minTrain ∧
          (lockedOf tiny).det.lrun.toNat + 1 = (lockedOf tiny).params.minTrain ∧ (lockedOf tiny).det.expect = false)
      timer := (by decide : 1 ≤ (lockedOf tiny).fr.tmr.toNat ∧ (lockedOf tiny).fr.tmr.toNat ≤ tiny.offsetTicks + tiny.bitTicks)
      stored := fun i hi => absurd hi (by simp [lockedOf, lock, State.withFsm, State.withFr])
      crcOfBytes := rfl
      syncHeld := fun h => absurd h (by simp [lockedOf, lock, State.withFsm, State.withFr])
      noLength := fun _ => rfl
      lengthHeld := fun h => absurd h (by simp [lockedOf, lock, State.withFsm, State.withFr])
      noResult := rfl }

/-- The last byte of the empty-payload frame is due (V-FR-5), the last of any that the smallest buffer holds. -/
theorem inv_last_byte : State.Inv (byteOf tiny [0x5A, 0xA5, 0x00, 0xBC] 0x52 0 true) where
  legal := by decide
  bufWf := by decide
  bufBelow := by unfold Memory.Below; decide
  idleOk := fun h => absurd h (by decide)
  seekOk := fun h => absurd h (by decide)
  lockedOk := fun _ =>
    { runs := by decide
      timer := by decide
      stored := by unfold Memory.Stored; decide
      crcOfBytes := by decide +kernel
      syncHeld := fun _ => by decide
      noLength := by decide
      lengthHeld := fun _ => by decide
      noResult := rfl }

/-- What the sync gate leaves (S-P2). -/
def syncFailed : State :=
  { idleOf vec with
    fr := { FrameReader.cleared with idx := 2 }
    res := { ResultRegs.cleared with done := true, result := .syncMismatch }
    buf := [(0, 0x5A), (1, 0xA4)] }

theorem inv_sync_failed : State.Inv syncFailed where
  legal := by decide
  bufWf := by decide
  bufBelow := by unfold Memory.Below; decide
  idleOk := fun _ => ⟨rfl, ⟨rfl, rfl, rfl, rfl⟩, rfl⟩
  seekOk := fun h => absurd h (by decide)
  lockedOk := fun h => absurd h (by decide)

/-- What the length gate leaves (S-P6). -/
def lengthFailed : State :=
  { idleOf vec with
    fr := { FrameReader.cleared with idx := 3, len := 0x21 }
    res := { ResultRegs.cleared with done := true, result := .lengthOverflow }
    buf := [(0, 0x5A), (1, 0xA5), (2, 0x21)] }

theorem inv_length_failed : State.Inv lengthFailed where
  legal := by decide
  bufWf := by decide
  bufBelow := by unfold Memory.Below; decide
  idleOk := fun _ => ⟨rfl, ⟨rfl, rfl, rfl, rfl⟩, rfl, by decide⟩
  seekOk := fun h => absurd h (by decide)
  lockedOk := fun h => absurd h (by decide)

/-! ### Encoding and the step -/

theorem witness_DecodeEncodeRoundTrip :
    (Instr.rdBuf 511).wellFormed = true ∧ (Instr.rdUnmapped 0x00E).wellFormed = true ∧
      (Instr.wrUnmapped 0xFFF 0xFFFF).wellFormed = true := by decide

theorem witness_DecoderPicksFirstTableRow :
    ReqWord.we 0x80050000 = ReqWord.we 0xF0052DD4 ∧ ReqWord.addr 0x80050000 = ReqWord.addr 0xF0052DD4 := by decide

theorem witness_IgnoredWriteDataHasNoEffect :
    (0x0001 : Word).getLsbD 0 = (0xFFFF : Word).getLsbD 0 ∧
      ∀ k, k < 8 → (0x1245 : Word).getLsbD k = (0xFF45 : Word).getLsbD k := by decide

/-- A block that idles, the request word `q` on its port. -/
def requested (q : ReqWord) : State := (idleOf vec).withInputs [reqPins q]

/-- The byte in progress when `rst` rises. -/
def resetting : State :=
  (byteOf vec [0x5A] 0x52 0 true).withInputs [{ rst := true, rx := true, reqValid := true, req := 0x80000001 }]

theorem witness_StepRunsDecodedRequest :
    ((requested 0x80000001).pins.rst = false ∧ (requested 0x80000001).pins.reqValid = true ∧
        decode (requested 0x80000001).pins.req = .wrCtrl 1 ∧ (Instr.wrCtrl 1).wellFormed = true) ∧
      ((idleOf vec).pins.rst = false ∧ (idleOf vec).pins.reqValid = false) ∧ resetting.pins.rst = true := by decide

theorem witness_ResetTickClearsAllButBuffer : resetting.pins.rst = true := by decide

/-! ### Host operations. `BufRoom` holds while IDLE and SEEK, and while LOCKED up to the buffer's last byte. -/

theorem witness_BufRoom :
    (idleOf vec).BufRoom ∧ (seekOf largest).BufRoom ∧ (lockedOf vec).BufRoom ∧
      (byteOf tiny [0x5A, 0xA5, 0x00, 0xBC] 0x52 0 true).BufRoom := by decide

theorem witness_ConstantReadsReturnTheirWord :
    ((idleOf largest).BufRoom ∧ (idleOf largest).params.Legal) ∧ (lockedOf tiny).BufRoom ∧ (lockedOf tiny).params.Legal := by
  decide

theorem witness_ResultReadsReturnTheirRegister :
    ((lockedOf tiny).BufRoom ∧ (lockedOf tiny).Inv ∧ (lockedOf tiny).fsm ≠ .idle ∧ (lockedOf tiny).fr.idx.toNat ≤ 2) ∧
      (syncFailed.BufRoom ∧ syncFailed.Inv ∧ syncFailed.fsm = .idle ∧ syncFailed.res.result = .syncMismatch) ∧
      (lengthFailed.BufRoom ∧ lengthFailed.Inv ∧ lengthFailed.fsm = .idle ∧
        lengthFailed.res.result = .lengthOverflow) :=
  ⟨⟨by decide, inv_just_locked _, by decide, by decide⟩, ⟨by decide, inv_sync_failed, by decide, by decide⟩,
    ⟨by decide, inv_length_failed, by decide, by decide⟩⟩

theorem witness_ConfigurationReadsReturnTheirRegister :
    ((idleOf vec).withPol true).BufRoom ∧ (lockedOf vec).BufRoom := by decide

theorem witness_StatusReadShowsEveryField :
    (idleOf vec).BufRoom ∧ (phaseOf vec16 true 8 7 6 false).BufRoom ∧ (lockedOf vec).BufRoom := by decide

theorem witness_AuxResultReadIsFinalCrc : (lockedOf vec).BufRoom ∧ (lockedOf vec).aux = 0x0000 := by decide

theorem witness_BufferReadReturnsByteOrZero :
    (lockedOf vec).BufRoom ∧ (36 : BitVec 9).toNat < (lockedOf vec).params.maxDataLen + 5 ∧
      (lockedOf vec).params.maxDataLen + 5 ≤ (37 : BitVec 9).toNat := by decide

theorem witness_UnmappedAccessesReadZeroAndIgnoreWrites : (idleOf vec).BufRoom ∧ (lockedOf vec).BufRoom := by decide

theorem witness_ReadsHaveNoSideEffect :
    Instr.rdCrcAuxClr.isWrite = false ∧ ∃ t, exec .rdCrcAuxClr (lockedOf vec) = .next t :=
  ⟨rfl, goes_on (by decide)⟩

theorem witness_ReadOnlyWritesChangeNothing : (idleOf vec).BufRoom ∧ (lockedOf vec).BufRoom := by decide

theorem witness_StartBeginsAttemptOnlyWhileIdle :
    ((0x0001 : Word).getLsbD 0 = true ∧ (idleOf vec).fsm = .idle) ∧
      ((0xFFFE : Word).getLsbD 0 = false ∧ (idleOf vec).BufRoom) ∧
      ((lockedOf vec).fsm ≠ .idle ∧ (lockedOf vec).BufRoom) := by decide

theorem witness_SyncWordWrittenOnlyWhileIdle :
    (idleOf vec).fsm = .idle ∧ (seekOf vec).fsm ≠ .idle ∧ (seekOf vec).BufRoom := by decide

theorem witness_PolarityWrittenOnlyWhileIdle :
    (idleOf vec).fsm = .idle ∧ (lockedOf vec).fsm ≠ .idle ∧ (lockedOf vec).BufRoom := by decide

theorem witness_AuxWritesChangeOnlyAux :
    (lockedOf vec).BufRoom ∧ (0x0001 : Word).getLsbD 0 = true ∧ (0xFFFE : Word).getLsbD 0 = false := by decide

theorem witness_RequestChangesOnlyItsTarget :
    ∃ u t, tickStep (lockedOf vec) = .next u ∧ exec (.wrSyncWord 0x1234) (lockedOf vec) = .next t ∧
      (lockedOf vec).fr.tmr ≠ 1 ∧ (lockedOf vec).fsm ≠ .idle :=
  ⟨_, _, rfl, rfl, by decide, by decide⟩

/-! ### The tick step while IDLE and SEEK -/

theorem witness_IdleTickKeepsEveryField : (idleOf vec).fsm = .idle := by decide

/-- A fresh search one tick before its limit of 2. -/
def oneBeforeLimit : State := seekOf { vec with lockTimeout := 2 }

/-- A fresh search at its limit: the coming tick is its first and its last. -/
def atLimit : State := seekOf { vec with lockTimeout := 1 }

/-- The first tick of an attempt, within the limit and at it. -/
theorem witness_FirstSampleBeginsPartialPhase :
    (oneBeforeLimit.fsm = .seek ∧ oneBeforeLimit.cls.haveLvl = false ∧ oneBeforeLimit.WithinLimit) ∧
      (atLimit.fsm = .seek ∧ atLimit.cls.haveLvl = false ∧ ¬ atLimit.WithinLimit) := by decide

/-- A low phase as long as PLEN can say. -/
def longPhase : State := { phaseOf vec false 65535 1 0 false with inputs := [quietPins false] }

theorem witness_SameLevelLengthensPhase :
    longPhase.fsm = .seek ∧ longPhase.cls.haveLvl = true ∧ longPhase.rx = longPhase.cls.lvl := by decide

/-- The edge that ends a partial first phase. -/
def partialEdge : State :=
  { phaseOf vec true 20 0 0 true with cls := { haveLvl := true, lvl := true, plen := 20, pvalid := false } }

theorem witness_PartialPhaseIsNotDelivered :
    partialEdge.fsm = .seek ∧ partialEdge.cls.haveLvl = true ∧ partialEdge.cls.pvalid = false ∧
      partialEdge.rx ≠ partialEdge.cls.lvl := by decide

theorem witness_ShortPhaseResetsTheRun :
    (phaseOf vec true 749 3 3 true).PhaseEnds ∧ ¬ (phaseOf vec true 749 3 3 true).PhaseValid := by decide

/-- Either half of the lock test can fail: too few highs, or, where the runs are out of step, the lows. -/
theorem witness_ValidHighIsCounted :
    ((phaseOf vec true 750 6 6 true).PhaseEnds ∧ (phaseOf vec true 750 6 6 true).PhaseValid ∧
        (phaseOf vec true 750 6 6 true).cls.lvl = true ∧ (phaseOf vec true 750 6 6 true).det.expect = true ∧
        7 = min ((phaseOf vec true 750 6 6 true).det.hrun.toNat + 1) 15 ∧
        ¬ (phaseOf vec true 750 6 6 true).LockTestPasses) ∧
      ((phaseOf vec true 750 15 15 true).PhaseEnds ∧ (phaseOf vec true 750 15 15 true).PhaseValid ∧
        (phaseOf vec true 750 15 15 true).cls.lvl = true ∧ (phaseOf vec true 750 15 15 true).det.expect = true ∧
        15 = min ((phaseOf vec true 750 15 15 true).det.hrun.toNat + 1) 15 ∧
        ¬ (phaseOf vec true 750 15 15 true).LockTestPasses) := by decide

theorem witness_LockArmsTheFrameReader :
    (phaseOf vec true 750 7 7 true).params.Legal ∧ (phaseOf vec true 750 7 7 true).PhaseEnds ∧
      (phaseOf vec true 750 7 7 true).PhaseValid ∧ (phaseOf vec true 750 7 7 true).cls.lvl = true ∧
      (phaseOf vec true 750 7 7 true).det.expect = true ∧
      8 = min ((phaseOf vec true 750 7 7 true).det.hrun.toNat + 1) 15 ∧ 8 ≥ vec.minTrain ∧
      (phaseOf vec true 750 7 7 true).det.lrun.toNat = 8 - 1 := by decide

theorem witness_LockArmsTheFrameReader_running :
    (phaseOf vec16 true 8 7 7 true).params.Legal ∧ (phaseOf vec16 true 8 7 7 true).PhaseEnds ∧
      (phaseOf vec16 true 8 7 7 true).PhaseValid ∧ (phaseOf vec16 true 8 7 7 true).cls.lvl = true ∧
      8 ≥ vec16.minTrain ∧ (phaseOf vec16 true 8 7 7 true).Inv :=
  ⟨by decide, by decide, by decide, by decide, by decide, inv_last_high⟩

theorem witness_ValidLowIsCounted :
    (phaseOf vec false 750 1 0 false).PhaseEnds ∧ (phaseOf vec false 750 1 0 false).PhaseValid ∧
      (phaseOf vec false 750 1 0 false).cls.lvl = false ∧ (phaseOf vec false 750 1 0 false).det.expect = false := by decide

theorem witness_UnexpectedPhaseIsIgnored :
    (phaseOf vec16 false 8 3 3 true).PhaseEnds ∧ (phaseOf vec16 false 8 3 3 true).PhaseValid ∧
      (phaseOf vec16 false 8 3 3 true).cls.lvl ≠ (phaseOf vec16 false 8 3 3 true).det.expect ∧
      (phaseOf vec16 false 8 3 3 true).Inv :=
  ⟨by decide, by decide, by decide, inv_low_while_high_expected⟩

theorem witness_TimeoutEndsTheSearch :
    (oneBeforeLimit.fsm = .seek ∧ oneBeforeLimit.WithinLimit) ∧ (atLimit.fsm = .seek ∧ ¬ atLimit.WithinLimit) := by decide

theorem witness_TimeoutBoundsTheWait :
    atLimit.Inv ∧ atLimit.fsm = .seek ∧ atLimit.params.lockTimeout ≠ 0 ∧
      atLimit.NoReset (atLimit.params.lockTimeout - atLimit.det.wcnt.toNat) :=
  ⟨inv_fresh_search _ (by decide) _, by decide, by decide, by unfold State.NoReset; decide⟩

theorem witness_SearchWithoutLimitGoesOn :
    (seekOf vec).fsm = .seek ∧ (seekOf vec).params.lockTimeout = 0 ∧ (seekOf vec).pins.rst = false := by decide

theorem witness_LockExactlyAtMinTrain :
    (phaseOf vec16 true 8 7 7 true).Inv ∧ (phaseOf vec16 true 8 7 7 true).fsm = .seek ∧
      (phaseOf vec16 true 8 7 7 true).pins.rst = false ∧ ∃ t, step (phaseOf vec16 true 8 7 7 true) = .next t :=
  ⟨inv_last_high, by decide, by decide, goes_on (by decide)⟩

theorem witness_AlternatingTrainingLocks :
    ((seekOf largest).params.Legal ∧ (seekOf largest).fsm = .seek ∧ (seekOf largest).det.expect = true ∧
        (seekOf largest).det.hrun = 0 ∧ (seekOf largest).det.lrun = 0) ∧
      13 + 1 < (seekOf largest).params.minTrain ∧ 14 + 1 = (seekOf largest).params.minTrain := by decide

theorem witness_SeekTickFrame :
    (seekOf vec).fsm = .seek ∧ ∃ t, tickStep (seekOf vec) = .next t := ⟨by decide, goes_on (by decide)⟩

/-! ### The frame reader -/

theorem witness_BitTimerCountsDown :
    (lockedOf vec).fsm = .locked ∧ 2 ≤ ({ lockedOf vec with fr := { FrameReader.cleared with tmr := 2 } } : State).fr.tmr.toNat
      ∧ 2 ≤ (lockedOf vec).fr.tmr.toNat := by decide

/-- The first sample is due, or the seventh bit of a byte. -/
def sampleDue (k : BitVec 3) : State :=
  { lockedOf vec with fr := { FrameReader.cleared with tmr := 1, bitcnt := k } }

theorem witness_SampleShiftsOneBitIn :
    ((sampleDue 0).fsm = .locked ∧ (sampleDue 0).fr.tmr = 1 ∧ (sampleDue 0).fr.bitcnt ≠ 7) ∧
      ((sampleDue 6).fsm = .locked ∧ (sampleDue 6).fr.tmr = 1 ∧ (sampleDue 6).fr.bitcnt ≠ 7) := by decide

/-- Byte 0, the first payload byte, and the trailer's first byte, which the CRC does not cover. -/
theorem witness_CompletedByteIsStored :
    ((byteOf vec [] 0 0 true).ByteDue ∧ (byteOf vec [] 0 0 true).fr.idx = 0) ∧
      ((byteOf vec [0x5A, 0xA5, 0x02] 0 2 true).ByteDue ∧ 3 ≤ (byteOf vec [0x5A, 0xA5, 0x02] 0 2 true).fr.idx.toNat ∧
        (byteOf vec [0x5A, 0xA5, 0x02] 0 2 true).fr.idx.toNat
          ≠ (byteOf vec [0x5A, 0xA5, 0x02] 0 2 true).fr.len.toNat + 4) ∧
      ((byteOf tiny [0x5A, 0xA5, 0x00] 0 0 true).ByteDue ∧ 3 ≤ (byteOf tiny [0x5A, 0xA5, 0x00] 0 0 true).fr.idx.toNat ∧
        (byteOf tiny [0x5A, 0xA5, 0x00] 0 0 true).fr.idx.toNat
          ≠ (byteOf tiny [0x5A, 0xA5, 0x00] 0 0 true).fr.len.toNat + 4) := by decide

theorem witness_SyncGateChecksTheSyncWord :
    (byteOf vec [0x5A] 0x52 0 true).ByteDue ∧ (byteOf vec [0x5A] 0x52 0 true).fr.idx = 1 ∧
      (byteOf vec [0x5A] 0x52 0 false).ByteDue ∧ (byteOf vec [0x5A] 0x52 0 false).fr.idx = 1 := by decide

theorem witness_LengthGateBoundsTheLength :
    (byteOf vec [0x5A, 0xA5] 0x10 0 false).ByteDue ∧ (byteOf vec [0x5A, 0xA5] 0x10 0 false).fr.idx = 2 ∧
      (byteOf tiny [0x5A, 0xA5] 0x00 0 true).ByteDue ∧ (byteOf tiny [0x5A, 0xA5] 0x00 0 true).fr.idx = 2 := by decide

/-- The shortest frame, and a frame with LEN 1. -/
theorem witness_FrameEndComparesTheCrc :
    ((byteOf tiny [0x5A, 0xA5, 0x00, 0xBC] 0x52 0 true).ByteDue ∧
        3 ≤ (byteOf tiny [0x5A, 0xA5, 0x00, 0xBC] 0x52 0 true).fr.idx.toNat ∧
        (byteOf tiny [0x5A, 0xA5, 0x00, 0xBC] 0x52 0 true).fr.idx.toNat
          = (byteOf tiny [0x5A, 0xA5, 0x00, 0xBC] 0x52 0 true).fr.len.toNat + 4) ∧
      ((byteOf vec [0x5A, 0xA5, 0x01, 0x00, 0x94] 0x7E 1 true).ByteDue ∧
        (byteOf vec [0x5A, 0xA5, 0x01, 0x00, 0x94] 0x7E 1 true).fr.idx.toNat
          = (byteOf vec [0x5A, 0xA5, 0x01, 0x00, 0x94] 0x7E 1 true).fr.len.toNat + 4) := by decide

/-- A state no run reaches: the byte after the last is due. -/
def outside : State := byteOf tiny [0x5A, 0xA5, 0x00, 0xBC, 0xA4] 0 0xFF true

theorem witness_ByteOutsideBufferFaults :
    outside.fsm = .locked ∧ outside.fr.tmr = 1 ∧ outside.fr.bitcnt = 7 ∧
      outside.params.maxDataLen + 5 ≤ outside.fr.idx.toNat := by decide

theorem witness_LockedTickFrame :
    (byteOf vec [0x5A] 0x52 0 true).fsm = .locked ∧ (∃ t, tickStep (byteOf vec [0x5A] 0x52 0 true) = .next t) ∧
      0 ≠ (byteOf vec [0x5A] 0x52 0 true).fr.idx.toNat ∧ (lockedOf vec).fr.tmr ≠ 1 ∧ (sampleDue 6).fr.bitcnt ≠ 7 :=
  ⟨by decide, goes_on (by decide), by decide, by decide, by decide⟩

/-! ### The whole block -/

/-- Each of the transitions happens: START, lock, timeout, the two gates, the end of a frame, reset. -/
theorem witness_OnlyListedTransitions :
    (∃ t, step (requested 0x80000001) = .next t ∧ t.fsm = .seek) ∧
      (∃ t, step (phaseOf vec16 true 8 7 7 true) = .next t ∧ t.fsm = .locked) ∧
      (∃ t, step atLimit = .next t ∧ t.fsm = .idle) ∧
      (∃ t, step (byteOf vec [0x5A] 0x52 0 true) = .next t ∧ t.fsm = .idle) ∧
      (∃ t, step (byteOf vec [0x5A, 0xA5] 0x10 0 false) = .next t ∧ t.fsm = .idle) ∧
      (∃ t, step (byteOf tiny [0x5A, 0xA5, 0x00, 0xBC] 0x52 0 true) = .next t ∧ t.fsm = .idle) ∧
      ∃ t, step resetting = .next t ∧ t.fsm = .idle :=
  ⟨⟨_, rfl, by decide⟩, ⟨_, rfl, by decide⟩, ⟨_, rfl, by decide⟩, ⟨_, rfl, by decide⟩, ⟨_, rfl, by decide⟩,
    ⟨_, rfl, by decide⟩, ⟨_, rfl, by decide⟩⟩

theorem witness_ResultStaysUntilStartOrReset :
    syncFailed.fsm = .idle ∧ syncFailed.pins.rst = false ∧
      ¬ (syncFailed.pins.reqValid = true ∧ ∃ d, decode syncFailed.pins.req = .wrCtrl d ∧ d.getLsbD 0 = true) :=
  ⟨by decide, by decide, fun h => absurd h.1 (by decide)⟩

/-- AUX is fed while the frame reader runs. -/
def auxWhileBusy : State := (lockedOf vec).withInputs [reqPins 0x800B0045]

theorem witness_ConfigurationIsConstantWhileBusy :
    auxWhileBusy.fsm ≠ .idle ∧ auxWhileBusy.pins.rst = false ∧
      ∃ t, step auxWhileBusy = .next t ∧ t.aux ≠ auxWhileBusy.aux :=
  ⟨by decide, by decide, _, rfl, by decide⟩

/-- Byte 0 of an attempt is due, over a byte of an earlier one. -/
def overwriting : State := (byteOf vec [] 0x2D 0 true).withBuf [(0, 0x11)]

theorem witness_OnlyFrameReaderWritesBuffer :
    ∃ t, step overwriting = .next t ∧ bufRead t 0 ≠ bufRead overwriting 0 := ⟨_, rfl, by decide⟩

theorem witness_ResetStateSatisfiesInvariant :
    tiny.Legal ∧ largest.Legal ∧ vec16.Legal ∧ Params.Legal { vec with lockTimeout := 19001 } := by decide

theorem witness_StepKeepsInvariant :
    (byteOf tiny [0x5A, 0xA5, 0x00, 0xBC] 0x52 0 true).Inv ∧
      ∃ t, step (byteOf tiny [0x5A, 0xA5, 0x00, 0xBC] 0x52 0 true) = .next t :=
  ⟨inv_last_byte, goes_on (by decide)⟩

theorem witness_StepNeverStops :
    (lockedOf tiny).Inv ∧ (phaseOf vec16 true 8 7 7 true).Inv ∧ (idleOf largest).Inv ∧ syncFailed.Inv :=
  ⟨inv_just_locked _, inv_last_high, inv_idle _ (by decide) _, inv_sync_failed⟩

/-- Two states that differ in a byte the attempt has not written. -/
theorem witness_StaleBytesNeverMatter :
    State.SameButStaleBytes ((lockedOf vec).withBuf [(0, 0x11)]) (((lockedOf vec).withBuf []).withRdata 0x1234) ∧
      ∃ t, step ((lockedOf vec).withBuf [(0, 0x11)]) = .next t :=
  ⟨⟨rfl, fun _ i hi => absurd hi (by simp [lockedOf, lock, State.withFsm, State.withFr, State.withBuf])⟩,
    goes_on (by decide)⟩

/-! ### Runs after lock, in the smallest elaboration: a sample every 8 ticks, the first 9 ticks after lock -/

/-- The level that sends `frame` with `POL` 0, in the tick `j` ticks after lock. -/
def sent (frame : List Byte) (j : Nat) : Level := !wireBit frame (j / 8 - 1)

/-- The state that LOCK leaves, the line sending `frame` in the next `n` ticks. -/
def receiving (frame : List Byte) (n : Nat) : State :=
  { lockedOf tiny with inputs := (List.range n).map fun j => quietPins (sent frame j) }

theorem justLocked_receiving (frame : List Byte) (n : Nat) : (receiving frame n).JustLocked := ⟨rfl, rfl⟩

theorem noReset_receiving (frame : List Byte) (n : Nat) : (receiving frame n).NoReset n := by
  refine ⟨by simp [receiving], fun p hp => ?_⟩
  have hp' := List.mem_of_mem_take hp
  simp only [receiving, List.mem_map] at hp'
  obtain ⟨j, -, rfl⟩ := hp'
  rfl

theorem lineSends_receiving (frame : List Byte) (n : Nat) (h : 1 + 8 * frame.length * 8 ≤ n) :
    (receiving frame n).LineSends frame := by
  intro k hk
  have hd : 8 * (k + 1) / 8 - 1 = k := by omega
  have hlt : 8 * (k + 1) < n := by omega
  have hj : tiny.offsetTicks + (k + 1) * tiny.bitTicks - 1 = 8 * (k + 1) := by
    have ho : tiny.offsetTicks = 1 := rfl
    have hb : tiny.bitTicks = 8 := rfl
    rw [ho, hb]
    omega
  have hp : (receiving frame n).params = tiny := rfl
  rw [hp, hj]
  simp only [State.rxAt, receiving, List.getElem?_map, List.getElem?_range hlt, Option.map_some, Option.getD_some,
    quietPins, sent, hd]
  change (!wireBit frame k) = if wireBit frame k = true then false else true
  cases wireBit frame k <;> rfl

theorem witness_LockedAttemptEnds :
    (receiving [] 321).Inv ∧ (receiving [] 321).fsm = .locked ∧
      321 = (receiving [] 321).fr.tmr.toNat + (8 * ((receiving [] 321).params.maxDataLen + 5 -
        (receiving [] 321).fr.idx.toNat) - (receiving [] 321).fr.bitcnt.toNat - 1) * (receiving [] 321).params.bitTicks ∧
      (receiving [] 321).NoReset 321 :=
  ⟨inv_just_locked _, rfl, by decide, noReset_receiving _ _⟩

/-- V-FR-5: the empty payload, with its trailer. -/
theorem witness_FrameIsReceivedAndChecked :
    (receiving [0x5A, 0xA5, 0x00, 0xBC, 0xA4] 321).params.Legal ∧
      (receiving [0x5A, 0xA5, 0x00, 0xBC, 0xA4] 321).JustLocked ∧
      ([] : List Byte).length ≤ (receiving [0x5A, 0xA5, 0x00, 0xBC, 0xA4] 321).params.maxDataLen ∧
      (0x5A : Byte) ++ (0xA5 : Byte) = (receiving [0x5A, 0xA5, 0x00, 0xBC, 0xA4] 321).syncWord ∧
      ([0x5A, 0xA5, 0x00, 0xBC, 0xA4] : List Byte)
        = (0x5A :: 0xA5 :: BitVec.ofNat 8 ([] : List Byte).length :: []) ++ [0xBC, 0xA4] ∧
      (receiving [0x5A, 0xA5, 0x00, 0xBC, 0xA4] 321).LineSends [0x5A, 0xA5, 0x00, 0xBC, 0xA4] ∧
      (receiving [0x5A, 0xA5, 0x00, 0xBC, 0xA4] 321).NoReset
        (tiny.offsetTicks + 8 * ([0x5A, 0xA5, 0x00, 0xBC, 0xA4] : List Byte).length * tiny.bitTicks) :=
  ⟨by decide, justLocked_receiving _ _, by decide, by decide, by decide, lineSends_receiving _ _ (by decide),
    noReset_receiving _ 321⟩

theorem witness_WrongSyncWordAborts :
    (receiving [0x5A, 0xA4] 129).params.Legal ∧ (receiving [0x5A, 0xA4] 129).JustLocked ∧
      (0x5A : Byte) ++ (0xA4 : Byte) ≠ (receiving [0x5A, 0xA4] 129).syncWord ∧
      (receiving [0x5A, 0xA4] 129).LineSends [0x5A, 0xA4] ∧
      (receiving [0x5A, 0xA4] 129).NoReset (tiny.offsetTicks + 16 * tiny.bitTicks) :=
  ⟨by decide, justLocked_receiving _ _, by decide, lineSends_receiving _ _ (by decide), noReset_receiving _ 129⟩

theorem witness_OversizedLengthAborts :
    (receiving [0x5A, 0xA5, 0x01] 193).params.Legal ∧ (receiving [0x5A, 0xA5, 0x01] 193).JustLocked ∧
      (0x5A : Byte) ++ (0xA5 : Byte) = (receiving [0x5A, 0xA5, 0x01] 193).syncWord ∧
      (receiving [0x5A, 0xA5, 0x01] 193).params.maxDataLen < (0x01 : Byte).toNat ∧
      (receiving [0x5A, 0xA5, 0x01] 193).LineSends [0x5A, 0xA5, 0x01] ∧
      (receiving [0x5A, 0xA5, 0x01] 193).NoReset (tiny.offsetTicks + 24 * tiny.bitTicks) :=
  ⟨by decide, justLocked_receiving _ _, by decide, by decide, lineSends_receiving _ _ (by decide),
    noReset_receiving _ 193⟩

theorem witness_CrcSeesAnyOneByteChange : (0x45 : Byte) ≠ 0x44 := by decide

end Sys2Proof.Tests
end

section
/-! The reset state, one lemma per field of the table of R28, and what the packet buffer holds then. -/

namespace Sys2Proof.Machine

@[simp] theorem State.reset_syncWord : State.reset.syncWord = 0x5AA5 := rfl
@[simp] theorem State.reset_pol : State.reset.pol = false := rfl
@[simp] theorem State.reset_fsm : State.reset.fsm = .idle := rfl
@[simp] theorem State.reset_cls : State.reset.cls = .cleared := rfl
@[simp] theorem State.reset_det : State.reset.det = .cleared := rfl
@[simp] theorem State.reset_fr : State.reset.fr = .cleared := rfl
@[simp] theorem State.reset_res : State.reset.res = .cleared := rfl
@[simp] theorem State.reset_aux : State.reset.aux = 0x0000 := rfl
@[simp] theorem State.reset_buf : State.reset.buf = [] := rfl

/-- U5: reset gives no byte of the packet buffer a value. -/
theorem get_reset_buf (i : Nat) : Memory.get State.reset.buf i = none := by
  rw [State.reset_buf, Memory.get_nil]

/-- Settles O7: each unit's registers stand at the unit's cleared value, whose fields are those of R28's table. -/
theorem resetLeavesEveryField : Obligations.ResetLeavesEveryField :=
  ⟨State.reset_syncWord, State.reset_pol, State.reset_fsm, State.reset_cls, State.reset_det, State.reset_fr,
    State.reset_res, State.reset_aux, get_reset_buf⟩

end Sys2Proof.Machine
end

section
/-! How the decoder acts on a word made from fields (R47, R49), and on the three kinds of address of R30: a register, the
buffer window, an unmapped address. From these, decoding undoes encoding. -/

namespace Sys2Proof

/-! ## The fields of a word made from fields -/

@[simp] theorem ReqWord.we_ofFields (w : Bool) (r : BitVec 3) (a : Addr) (d : Word) :
    ReqWord.we (ReqWord.ofFields w r a d) = w := by
  obtain ⟨hwe, -, -, -⟩ := Laws.ofFields_fields w r a d
  exact hwe

@[simp] theorem ReqWord.addr_ofFields (w : Bool) (r : BitVec 3) (a : Addr) (d : Word) :
    ReqWord.addr (ReqWord.ofFields w r a d) = a := by
  obtain ⟨-, -, haddr, -⟩ := Laws.ofFields_fields w r a d
  exact haddr

@[simp] theorem ReqWord.wdata_ofFields (w : Bool) (r : BitVec 3) (a : Addr) (d : Word) :
    ReqWord.wdata (ReqWord.ofFields w r a d) = d := by
  obtain ⟨-, -, -, hwdata⟩ := Laws.ofFields_fields w r a d
  exact hwdata

/-- R49: WE chooses the half of the table, ADDR the row; RSV is not looked at. -/
@[simp] theorem decode_ofFields (w : Bool) (r : BitVec 3) (a : Addr) (d : Word) :
    decode (ReqWord.ofFields w r a d) = if w then decodeWrite a d else decodeRead a := by
  simp [decode]

/-! ## Addresses past the registers -/

/-- R30: the window is 0x200 to 0x3FF. -/
theorem Addr.inBufWindow_iff (a : Addr) : Addr.inBufWindow a = true ↔ 0x200 ≤ a.toNat ∧ a.toNat ≤ 0x3FF := by
  have := a.isLt
  have hfield : (a.extractLsb' 9 3).toNat = a.toNat / 2 ^ 9 % 2 ^ 3 := by
    rw [BitVec.extractLsb'_toNat, Nat.shiftRight_eq_div_pow]
  rw [Addr.inBufWindow, beq_iff_eq, ← BitVec.toNat_inj, hfield, show (1 : BitVec 3).toNat = 1 from rfl]
  omega

/-- An unmapped address names no register and lies outside the window. -/
theorem Addr.not_inBufWindow_of_isUnmapped {a : Addr} (h : Addr.isUnmapped a = true) :
    14 ≤ a.toNat ∧ ¬ Addr.inBufWindow a = true := by
  simp only [Addr.isUnmapped, Bool.or_eq_true, Bool.and_eq_true, decide_eq_true_eq] at h
  rw [Addr.inBufWindow_iff]
  omega

theorem decodeRead_of_not_register {a : Addr} (h : 14 ≤ a.toNat) :
    decodeRead a = if Addr.inBufWindow a then .rdBuf (Addr.bufIndex a) else .rdUnmapped a := by
  unfold decodeRead
  split
  case h_15 => rfl
  all_goals omega

theorem decodeWrite_of_not_register {a : Addr} (h : 14 ≤ a.toNat) (d : Word) :
    decodeWrite a d = if Addr.inBufWindow a then .wrBuf (Addr.bufIndex a) d else .wrUnmapped a d := by
  unfold decodeWrite
  split
  case h_15 => rfl
  all_goals omega

/-- R48: the address of window entry `i` does not wrap. -/
theorem windowAddr_toNat (i : BitVec 9) : (0x200 + i.setWidth 12 : Addr).toNat = 0x200 + i.toNat := by
  have := i.isLt
  rw [BitVec.toNat_add, BitVec.toNat_setWidth, show (0x200 : Addr).toNat = 0x200 from rfl]
  omega

theorem windowAddr_not_register (i : BitVec 9) : 14 ≤ (0x200 + i.setWidth 12 : Addr).toNat := by
  rw [windowAddr_toNat]
  omega

theorem inBufWindow_windowAddr (i : BitVec 9) : Addr.inBufWindow (0x200 + i.setWidth 12) = true := by
  rw [Addr.inBufWindow_iff, windowAddr_toNat]
  omega

theorem bufIndex_windowAddr (i : BitVec 9) : Addr.bufIndex (0x200 + i.setWidth 12) = i := by
  rw [Addr.bufIndex, BitVec.add_comm, BitVec.add_sub_cancel, BitVec.setWidth_setWidth_of_le _ (by omega), BitVec.setWidth_eq]

/-! ## Decoding what the assembler wrote (R66) -/

theorem decode_encode_fields (i : Instr) :
    decode (encode i) = if i.isWrite then decodeWrite i.addr i.wdata else decodeRead i.addr :=
  decode_ofFields i.isWrite 0 i.addr i.wdata

theorem decodeRead_windowAddr (i : BitVec 9) : decodeRead (0x200 + i.setWidth 12) = .rdBuf i := by
  rw [decodeRead_of_not_register (windowAddr_not_register i), if_pos (inBufWindow_windowAddr i), bufIndex_windowAddr]

theorem decodeWrite_windowAddr (i : BitVec 9) (d : Word) : decodeWrite (0x200 + i.setWidth 12) d = .wrBuf i d := by
  rw [decodeWrite_of_not_register (windowAddr_not_register i), if_pos (inBufWindow_windowAddr i), bufIndex_windowAddr]

theorem decodeRead_unmapped {a : Addr} (h : Addr.isUnmapped a = true) : decodeRead a = .rdUnmapped a := by
  obtain ⟨hreg, hwin⟩ := Addr.not_inBufWindow_of_isUnmapped h
  rw [decodeRead_of_not_register hreg, if_neg hwin]

theorem decodeWrite_unmapped {a : Addr} (h : Addr.isUnmapped a = true) (d : Word) :
    decodeWrite a d = .wrUnmapped a d := by
  obtain ⟨hreg, hwin⟩ := Addr.not_inBufWindow_of_isUnmapped h
  rw [decodeWrite_of_not_register hreg, if_neg hwin]

/-- Settles O1, by the kind of address: a register's address is fixed and selects its own row; a window address gives its index
back; an unmapped address is its own operand, and only here is well-formedness needed. -/
theorem decodeEncodeRoundTrip : Obligations.DecodeEncodeRoundTrip := by
  intro i hwf
  rw [decode_encode_fields]
  cases i with
  | rdBuf k => exact decodeRead_windowAddr k
  | wrBuf k d => exact decodeWrite_windowAddr k d
  | rdUnmapped a => exact decodeRead_unmapped hwf
  | wrUnmapped a d => exact decodeWrite_unmapped hwf d
  | _ => rfl

end Sys2Proof
end

section
/-! The opcode table against the decoder (R49). No row's mask reaches outside WE and ADDR, and past the registers none reaches
below ADDR[11:9]; so the first row of a word is that of the word cut to the bits the rows look at. -/

namespace Sys2Proof

/-! ## Cutting a word to the bits the table looks at -/

theorem ReqWord.ofFields_and (w w' : Bool) (r r' : BitVec 3) (a a' : Addr) (d d' : Word) :
    ReqWord.ofFields w r a d &&& ReqWord.ofFields w' r' a' d' =
      ReqWord.ofFields (w && w') (r &&& r') (a &&& a') (d &&& d') := by
  have happend : (BitVec.ofBool w ++ r ++ a ++ d) &&& (BitVec.ofBool w' ++ r' ++ a' ++ d') =
      BitVec.ofBool (w && w') ++ (r &&& r') ++ (a &&& a') ++ (d &&& d') := by
    rw [BitVec.and_append, BitVec.and_append, BitVec.and_append, BitVec.ofBool_and_ofBool]
  exact happend

/-- The bits 0x8FFF0000 of a word are WE and ADDR. -/
theorem ReqWord.and_register_mask (q : ReqWord) :
    q &&& 0x8FFF0000 = ReqWord.ofFields (ReqWord.we q) 0 (ReqWord.addr q) 0 := by
  have hmask : (0x8FFF0000 : ReqWord) = ReqWord.ofFields true 0 (BitVec.allOnes 12) 0 := by decide
  conv_lhs => rw [← Laws.ofFields_of_fields q, hmask]
  rw [ReqWord.ofFields_and, Bool.and_true, BitVec.and_allOnes]
  simp

/-- The bits 0x8E000000 of a word are WE and ADDR[11:9]. -/
theorem ReqWord.and_window_mask (q : ReqWord) :
    q &&& 0x8E000000 = ReqWord.ofFields (ReqWord.we q) 0 ((ReqWord.addr q).extractLsb' 9 3 ++ (0 : BitVec 9)) 0 := by
  have hmask : (0x8E000000 : ReqWord) = ReqWord.ofFields true 0 (BitVec.allOnes 3 ++ (0 : BitVec 9)) 0 := by decide
  have haddr : ReqWord.addr q = (ReqWord.addr q).extractLsb' 9 3 ++ (ReqWord.addr q).extractLsb' 0 9 := by
    rw [BitVec.extractLsb'_append_extractLsb'_eq_extractLsb' (by omega)]
    exact BitVec.extractLsb'_eq_self.symm
  conv_lhs => rw [← Laws.ofFields_of_fields q, hmask, haddr]
  rw [ReqWord.ofFields_and, Bool.and_true, BitVec.and_append, BitVec.and_allOnes]
  simp

/-- A row matches a word by the bits of its mask alone. -/
theorem OpRow.selects_and {r : OpRow} {m : ReqWord} (h : m &&& r.mask = r.mask) (q : ReqWord) :
    r.selects (q &&& m) = r.selects q := by
  rw [OpRow.selects, BitVec.and_assoc, h, OpRow.selects]

theorem find?_selects_and {rows : List OpRow} {m : ReqWord} (h : ∀ r ∈ rows, m &&& r.mask = r.mask) (q : ReqWord) :
    rows.find? (fun r => r.selects (q &&& m)) = rows.find? (fun r => r.selects q) :=
  List.find?_congr fun r hr => OpRow.selects_and (h r hr) q

/-! ## The operation's name by WE and ADDR alone -/

theorem decodeWrite_mnemonic (a : Addr) (d e : Word) : (decodeWrite a d).mnemonic = (decodeWrite a e).mnemonic := by
  unfold decodeWrite
  split
  case h_15 => split <;> rfl
  all_goals rfl

theorem decode_mnemonic (q : ReqWord) :
    (decode q).mnemonic = (decode (ReqWord.ofFields (ReqWord.we q) 0 (ReqWord.addr q) 0)).mnemonic := by
  rw [decode_ofFields, decode]
  split
  · exact decodeWrite_mnemonic _ _ _
  · rfl

/-! ## The first matching row -/

theorem firstRow_by_we_addr (q : ReqWord) :
    firstRow q = firstRow (ReqWord.ofFields (ReqWord.we q) 0 (ReqWord.addr q) 0) := by
  rw [← ReqWord.and_register_mask]
  exact (find?_selects_and (by decide) q).symm

/-- The 28 register rows, each with the operation it stands for. -/
theorem firstRow_register (w : Bool) (k : Fin 14) :
    (firstRow (ReqWord.ofFields w 0 (BitVec.ofNat 12 k) 0)).map OpRow.mnemonic =
      some (decode (ReqWord.ofFields w 0 (BitVec.ofNat 12 k) 0)).mnemonic := by
  revert w k
  decide

/-- A register row matches only words that address a register. -/
theorem register_of_selects {r : OpRow} (hr : r ∈ opRowsLow ++ opRowsHigh) {q : ReqWord} (h : r.selects q = true) :
    (ReqWord.addr q).toNat < 14 := by
  have hrows : ∀ r ∈ opRowsLow ++ opRowsHigh, r.mask = 0x8FFF0000 ∧ (ReqWord.addr r.pattern).toNat < 14 := by decide
  obtain ⟨hmask, hlt⟩ := hrows r hr
  rw [OpRow.selects, beq_iff_eq, hmask, ReqWord.and_register_mask] at h
  rwa [← h, ReqWord.addr_ofFields] at hlt

/-- Past the registers the last four rows decide. -/
theorem firstRow_not_register {q : ReqWord} (h : 14 ≤ (ReqWord.addr q).toNat) :
    firstRow q = opRowsRest.find? (fun r => r.selects q) := by
  have hnone : (opRowsLow ++ opRowsHigh).find? (fun r => r.selects q) = none :=
    List.find?_eq_none.2 fun r hr hsel => absurd (register_of_selects hr hsel) (by omega)
  rw [firstRow, opcodeTable, List.find?_append, hnone, Option.none_or]

/-- R30: of the last four rows, ADDR[11:9] = 001 tells the window's from the others. -/
theorem restRow_mnemonic (q : ReqWord) :
    (opRowsRest.find? (fun r => r.selects q)).map OpRow.mnemonic =
      some (if ReqWord.we q then (if Addr.inBufWindow (ReqWord.addr q) then "WR_BUF" else "WR_UNMAPPED")
        else if Addr.inBufWindow (ReqWord.addr q) then "RD_BUF" else "RD_UNMAPPED") := by
  have hbits : ∀ (w : Bool) (b : BitVec 3),
      (opRowsRest.find? (fun r => r.selects (ReqWord.ofFields w 0 (b ++ (0 : BitVec 9)) 0))).map OpRow.mnemonic =
        some (if w then (if b == 1 then "WR_BUF" else "WR_UNMAPPED") else if b == 1 then "RD_BUF" else "RD_UNMAPPED") := by
    decide
  rw [← find?_selects_and (m := 0x8E000000) (by decide) q, ReqWord.and_window_mask]
  exact hbits _ _

/-- R49: the table and the decoder name the same operation. -/
theorem firstRow_mnemonic (q : ReqWord) : (firstRow q).map OpRow.mnemonic = some (decode q).mnemonic := by
  by_cases hreg : (ReqWord.addr q).toNat < 14
  · have haddr : ReqWord.addr q = BitVec.ofNat 12 (⟨_, hreg⟩ : Fin 14) := by simp
    rw [firstRow_by_we_addr, decode_mnemonic, haddr]
    exact firstRow_register _ _
  · have hreg : 14 ≤ (ReqWord.addr q).toNat := by omega
    rw [firstRow_not_register hreg, restRow_mnemonic, decode, decodeWrite_of_not_register hreg,
      decodeRead_of_not_register hreg]
    cases ReqWord.we q <;> cases Addr.inBufWindow (ReqWord.addr q) <;> rfl

/-- Settles O3: the first row by the table's masks, and the rest because the decoder looks at WE, ADDR and WDATA alone. -/
theorem decoderPicksFirstTableRow : Obligations.DecoderPicksFirstTableRow := by
  refine ⟨fun q => Option.map_eq_some_iff.1 (firstRow_mnemonic q), fun q q' hwe haddr => ?_, fun q r => ?_⟩
  · rw [decode_mnemonic q, decode_mnemonic q', hwe, haddr]
  · rw [decode_ofFields, decode]

end Sys2Proof
end

section
/-! The STATUS word (R51) as a number: each field stands above everything packed below it. -/

namespace Sys2Proof.Machine

/-- A field put above `k` bits that hold `r` adds its value times `2 ^ k`. -/
theorem packField {n k r : Nat} (v : BitVec n) {rest : Word} (h : rest.toNat = r ∧ r < 2 ^ k) (hk : n + k ≤ 16) :
    ((v.setWidth 16 <<< k) ||| rest).toNat = v.toNat * 2 ^ k + r ∧ v.toNat * 2 ^ k + r < 2 ^ (n + k) := by
  obtain ⟨rfl, hr⟩ := h
  have hbound : v.toNat * 2 ^ k + rest.toNat < 2 ^ (n + k) := by
    have := Nat.mul_le_mul_right (2 ^ k) (Nat.succ_le_of_lt v.isLt)
    rw [Nat.pow_add]
    rw [Nat.succ_mul] at this
    omega
  have hfit : 2 ^ (n + k) ≤ 2 ^ 16 := Nat.pow_le_pow_right (by omega) hk
  have hwide : v.toNat < 2 ^ 16 := v.isLt.trans_le (Nat.pow_le_pow_right (by omega) (by omega))
  have hshift : (v.setWidth 16 <<< k).toNat = v.toNat <<< k := by
    rw [BitVec.toNat_shiftLeft, BitVec.toNat_setWidth, Nat.mod_eq_of_lt hwide, Nat.shiftLeft_eq,
      Nat.mod_eq_of_lt (by omega)]
  refine ⟨?_, hbound⟩
  rw [BitVec.toNat_or, hshift, ← Nat.shiftLeft_add_eq_or_of_lt hr, Nat.shiftLeft_eq]

/-- R146: the code a result is encoded with is its number in the table. -/
theorem ResultCode.code_toNat (c : ResultCode) : c.code.toNat = c.number := by cases c <;> rfl

/-- R51: so is the code of the sequencer's state. -/
theorem State.stateField_toNat (s : State) : s.stateField.toNat = s.stateNumber := by
  unfold State.stateField State.stateNumber
  cases s.fsm with
  | seek => cases s.det.expect <;> rfl
  | _ => rfl

theorem State.valid_toNat (s : State) : s.valid.toNat = if s.res.result = .ok then 1 else 0 := by
  unfold State.valid
  cases s.res.result <;> rfl

theorem State.busy_toNat (s : State) : s.busy.toNat = if s.fsm = .idle then 0 else 1 := by
  unfold State.busy
  cases s.fsm <;> rfl

/-- R51: the seven fields of STATUS, BUSY lowest. -/
theorem statusWord_toNat (s : State) :
    (statusWord s).toNat =
      s.det.lrun.toNat * 2 ^ 12 + (s.det.hrun.toNat * 2 ^ 8 + (s.valid.toNat * 2 ^ 7 + (s.res.result.number * 2 ^ 4 +
        (s.stateNumber * 2 ^ 2 + (s.res.done.toNat * 2 ^ 1 + s.busy.toNat))))) := by
  have hbusy : ((BitVec.ofBool s.busy).setWidth 16).toNat = s.busy.toNat ∧ s.busy.toNat < 2 ^ 1 := by
    cases s.busy <;> decide
  have hdone := packField (BitVec.ofBool s.res.done) hbusy (by omega)
  have hstate := packField s.stateField hdone (by omega)
  have hresult := packField s.res.result.code hstate (by omega)
  have hvalid := packField (BitVec.ofBool s.valid) hresult (by omega)
  have hhrun := packField s.det.hrun hvalid (by omega)
  have hlrun := packField s.det.lrun hhrun (by omega)
  simpa only [statusWord, BitVec.or_assoc, BitVec.toNat_ofBool, ResultCode.code_toNat, State.stateField_toNat] using
    hlrun.1

/-- R115: a read of STATUS is a tick that answers with the STATUS word. -/
theorem exec_rdStatus (s : State) : exec .rdStatus s = hostRead (statusWord s) s := rfl

/-- Settles O12: the tick goes on, and the word read is the sum of the seven fields, each at its place. -/
theorem statusReadShowsEveryField : Obligations.StatusReadShowsEveryField := by
  intro s hroom
  obtain ⟨t, ht⟩ := tickStep_goes_on hroom
  refine ⟨t, statusWord s, ht, (exec_rdStatus s).trans (hostRead_of_tick ht _), ?_⟩
  rw [statusWord_toNat, State.valid_toNat, State.busy_toNat, Bool.toNat, Bool.cond_eq_ite]
  simp only [Nat.add_assoc, Nat.pow_one]

end Sys2Proof.Machine
end

section
/-! A SEEK tick in which the classifier delivers no phase: what each sample leaves in the classifier (R68, R69), the tick
counted and the limit of the search tested (R88). -/

namespace Sys2Proof.Machine

/-- `sat_w(v + 1)` as a word (R12). -/
theorem satSucc_eq_ofNat {w : Nat} (v : BitVec w) : satSucc v = BitVec.ofNat w (min (v.toNat + 1) (2 ^ w - 1)) := by
  rw [← satSucc_toNat, BitVec.ofNat_toNat, BitVec.setWidth_eq]

/-- R88: the new SEEK count. -/
theorem satSucc_wcnt (s : State) : satSucc s.det.wcnt = BitVec.ofNat 32 s.searchTicks := satSucc_eq_ofNat s.det.wcnt

theorem classifyTick_first {s : State} (h : s.cls.haveLvl = false) : classifyTick s = s.withCls (clsFirst s.rx) := by
  rw [classifyTick, if_pos h]

theorem classifyTick_same {s : State} (h : s.cls.haveLvl = true) (hrx : s.rx = s.cls.lvl) :
    classifyTick s = s.withCls (clsSame s.cls) := by
  rw [classifyTick, if_neg (by simp [h]), if_pos hrx]

/-- Where no phase is delivered, a SEEK tick changes the classifier and the SEEK count, and may reach the limit. -/
theorem tickStep_no_phase {s : State} {c : Classifier} (hf : s.fsm = .seek) (hc : classifyTick s = s.withCls c) :
    tickStep s = .next (s.orTimeout { s with
      cls := c
      det := { s.det with wcnt := BitVec.ofNat 32 s.searchTicks } }) := by
  have hseek : (s.withCls c).fsm ≠ .locked := by simp [hf]
  rw [tickStep_orTimeout hf hc (State.withCls_params s c) (congrArg _ (State.withCls_det s c)) hseek, satSucc_wcnt]
  rfl

/-- Settles O24: the first sample delivers no phase. -/
theorem firstSampleBeginsPartialPhase : Obligations.FirstSampleBeginsPartialPhase :=
  fun _ hf hfirst => tickStep_no_phase hf (classifyTick_first hfirst)

/-- Settles O25: nor does a sample of the same level, and the phase's length saturates at the greatest 16-bit value. -/
theorem sameLevelLengthensPhase : Obligations.SameLevelLengthensPhase := by
  intro s hf hlvl hrx
  have hlen : satSucc s.cls.plen = BitVec.ofNat 16 (min (s.cls.plen.toNat + 1) 65535) := satSucc_eq_ofNat s.cls.plen
  rw [← hlen]
  exact tickStep_no_phase hf (classifyTick_same hlvl hrx)

end Sys2Proof.Machine
end

section
/-! A SEEK tick that ends a phase whose start was seen (R70): the phase is delivered, and DET_PHASE counts it, resets the run,
or locks (R79 to R84). -/

namespace Sys2Proof.Machine

/-! ## The phase delivered -/

/-- R71: a phase whose start was not seen is not delivered. -/
theorem classifyTick_partial {s : State} (h : s.cls.haveLvl = true) (hrx : s.rx ≠ s.cls.lvl)
    (hpart : s.cls.pvalid = false) : classifyTick s = s.withCls (clsEdge s.rx s.cls) := by
  rw [classifyTick, if_neg (by simp [h]), if_neg hrx, deliveredPhase, if_neg (by simp [hpart])]

theorem classifyTick_delivered {s : State} (h : s.cls.haveLvl = true) (hrx : s.rx ≠ s.cls.lvl)
    (hseen : s.cls.pvalid = true) :
    classifyTick s =
      detPhase ⟨s.cls.lvl, s.cls.plen, classify s.params s.cls.plen⟩ (s.withCls (clsEdge s.rx s.cls)) := by
  rw [classifyTick, if_neg (by simp [h]), if_neg hrx, deliveredPhase, if_pos hseen]

theorem classifyTick_phaseEnds {s : State} (h : s.PhaseEnds) :
    classifyTick s =
      detPhase ⟨s.cls.lvl, s.cls.plen, classify s.params s.cls.plen⟩ (s.withCls (clsEdge s.rx s.cls)) := by
  obtain ⟨-, hlvl, hseen, hrx⟩ := h
  exact classifyTick_delivered hlvl hrx hseen

/-- R70: after an edge the classifier measures a phase that it saw begin. -/
theorem clsEdge_of_haveLvl {c : Classifier} (h : c.haveLvl = true) (rx : Level) :
    clsEdge rx c = { haveLvl := true, lvl := rx, plen := 1, pvalid := true } := by
  rw [clsEdge, h]

theorem State.PhaseValid.classify {s : State} (h : s.PhaseValid) : classify s.params s.cls.plen = .valid := if_pos h

theorem classify_of_not_phaseValid {s : State} (h : ¬ s.PhaseValid) : classify s.params s.cls.plen = .short := if_neg h

/-! ## What the detector does with it -/

theorem detPhase_short (l : Level) (d : BitVec 16) (s : State) : detPhase ⟨l, d, .short⟩ s = s.withDet (detShort s.det) :=
  rfl

theorem detPhase_low {s : State} (he : s.det.expect = false) (d : BitVec 16) :
    detPhase ⟨false, d, .valid⟩ s = s.withDet (detLow s.det) := by
  simp [detPhase, he]

theorem detPhase_lock {s : State} (he : s.det.expect = true) (hl : lockTest s.params s.det = true) (d : BitVec 16) :
    detPhase ⟨true, d, .valid⟩ s = lock (s.withDet (detHigh s.det)) := by
  simp [detPhase, he, hl]

/-- R81: the lock test, for the count the coming tick makes. -/
theorem State.LockTestPasses.lockTest {s : State} (h : s.LockTestPasses) : lockTest s.params s.det = true := by
  obtain ⟨htrain, hlows⟩ := h
  rw [lockTest_iff, satSucc_toNat]
  omega

/-! ## The whole tick -/

/-- A delivered phase on which the detector goes on to `d`: the next phase begins, the tick is counted and the limit
tested. -/
theorem tickStep_phaseEnds {s : State} {d : Detector} (h : s.PhaseEnds)
    (hd : classifyTick s = (s.withCls (clsEdge s.rx s.cls)).withDet d) (hw : d.wcnt = s.det.wcnt) :
    tickStep s = .next (s.orTimeout { s with
      cls := { haveLvl := true, lvl := s.rx, plen := 1, pvalid := true }
      det := { d with wcnt := BitVec.ofNat 32 s.searchTicks } }) := by
  obtain ⟨hf, hlvl, -, -⟩ := h
  have hseek : ((s.withCls (clsEdge s.rx s.cls)).withDet d).fsm ≠ .locked := by simp [hf]
  rw [tickStep_orTimeout hf hd rfl hw hseek, satSucc_wcnt, clsEdge_of_haveLvl hlvl]
  rfl

/-- R88: a SEEK tick that locks is counted, and the limit is not tested. -/
theorem tickStep_of_lock {s : State} (hf : s.fsm = .seek) (hw : (classifyTick s).det.wcnt = s.det.wcnt)
    (hl : (classifyTick s).fsm = .locked) :
    tickStep s = .next ((classifyTick s).withDet
      { (classifyTick s).det with wcnt := BitVec.ofNat 32 s.searchTicks }) := by
  rcases timeoutTick_cases (classifyTick s) with ⟨-, e⟩ | ⟨hn, -⟩
  · rw [tickStep_seek hf, seekTick, e, hw, satSucc_wcnt]
  · exact absurd hl hn

/-- Settles O27: DET_SHORT is the case of a phase that is not valid, whatever its level. -/
theorem shortPhaseResetsTheRun : Obligations.ShortPhaseResetsTheRun := by
  intro s hends hshort
  have hd : classifyTick s = (s.withCls (clsEdge s.rx s.cls)).withDet (detShort s.det) := by
    rw [classifyTick_phaseEnds hends, classify_of_not_phaseValid hshort, detPhase_short, State.withCls_det]
  exact tickStep_phaseEnds hends hd rfl

/-- Settles O30: DET_LOW is the case of an expected low, and the count saturates at the greatest 4-bit value. -/
theorem validLowIsCounted : Obligations.ValidLowIsCounted := by
  intro s hends hvalid hlow hexpect
  have hcount : satSucc s.det.lrun = BitVec.ofNat 4 (min (s.det.lrun.toNat + 1) 15) := satSucc_eq_ofNat s.det.lrun
  have hd : classifyTick s = (s.withCls (clsEdge s.rx s.cls)).withDet (detLow s.det) := by
    rw [classifyTick_phaseEnds hends, hvalid.classify, hlow, detPhase_low (s := s.withCls (clsEdge s.rx s.cls)) hexpect, State.withCls_det]
  rw [← hcount]
  exact tickStep_phaseEnds hends hd rfl

/-! ## Lock -/

/-- R81, R84: the valid high that passes the lock test is counted, and locks. -/
theorem classifyTick_lock {s : State} (hends : s.PhaseEnds) (hvalid : s.PhaseValid) (hhigh : s.cls.lvl = true)
    (hexpect : s.det.expect = true) (htest : s.LockTestPasses) :
    classifyTick s = lock ((s.withCls (clsEdge s.rx s.cls)).withDet (detHigh s.det)) := by
  rw [classifyTick_phaseEnds hends, hvalid.classify, hhigh,
    detPhase_lock (s := s.withCls (clsEdge s.rx s.cls)) hexpect htest.lockTest, State.withCls_det]

/-- R84: the first wait of the bit timer fits its 17 bits, in every legal elaboration. -/
theorem firstWait_toNat {p : Params} (h : p.Legal) :
    (BitVec.ofNat 17 (p.offsetTicks + p.bitTicks)).toNat = p.bitTicks / 8 + p.bitTicks := by
  obtain ⟨-, hbit, -⟩ := h
  rw [BitVec.toNat_ofNat, Params.offsetTicks, Nat.mod_eq_of_lt (by omega)]

/-- R84: in a running block the high that passes the lock test is the one that brings the run to `MIN_TRAIN`. -/
theorem State.Inv.hrun_at_lock {s : State} (hi : s.Inv) (hf : s.fsm = .seek) (htest : s.LockTestPasses) :
    min (s.det.hrun.toNat + 1) 15 = s.params.minTrain := by
  have hbelow := (hi.seekOk hf).belowTrain
  obtain ⟨htrain, -⟩ := htest
  omega

/-- Settles O29: the tick is the one of `tickStep_of_lock`, so the limit plays no part, and LEN is not among the fields LOCK
writes. -/
theorem lockArmsTheFrameReader : Obligations.LockArmsTheFrameReader := by
  intro s h hlegal hends hvalid hhigh hexpect hh htrain hlows
  have hcount : satSucc s.det.hrun = BitVec.ofNat 4 h := hh ▸ satSucc_eq_ofNat s.det.hrun
  have htest : s.LockTestPasses := ⟨hh ▸ htrain, hh ▸ hlows⟩
  have hlock := classifyTick_lock hends hvalid hhigh hexpect htest
  obtain ⟨hf, hlvl, -, -⟩ := hends
  refine ⟨_, tickStep_of_lock hf (by rw [hlock]; rfl) (by rw [hlock]; rfl), ?_⟩
  rw [hlock, clsEdge_of_haveLvl hlvl]
  refine ⟨firstWait_toNat hlegal, ?_, fun hi => ?_⟩
  · rw [← hcount]
    rfl
  · have hrun := hi.hrun_at_lock hf htest
    refine ⟨?_, ?_⟩
    · exact (satSucc_toNat s.det.hrun).trans hrun
    · change s.det.lrun.toNat = _
      omega

end Sys2Proof.Machine
end

section
/-! Any SEEK tick: what the classifier and the detector leave alone, that they do not read `LOCK_TIMEOUT`, and how the limit
of the search ends the tick (R87, R88, R110). -/

namespace Sys2Proof.Machine

/-! ## The frame of the classifier and the detector -/

/-- `t` differs from `s` at most as the classifier and the detector may change a state: they write neither the SEEK count nor
a result, and the sequencer and the frame reader only by LOCK. -/
structure State.SearchFrame (s t : State) : Prop where
  params : t.params = s.params
  wcnt : t.det.wcnt = s.det.wcnt
  res : t.res = s.res
  fsm : t.fsm = .locked ∨ (t.fsm = s.fsm ∧ t.fr = s.fr)

theorem searchFrame_withCls (s : State) (c : Classifier) : s.SearchFrame (s.withCls c) := ⟨rfl, rfl, rfl, .inr ⟨rfl, rfl⟩⟩

theorem searchFrame_detPhase (ph : Phase) (s : State) : s.SearchFrame (detPhase ph s) := by
  rcases detPhase_cases ph s with ⟨-, e⟩ | ⟨-, -, -, -, e⟩ | ⟨-, -, -, -, e⟩ | ⟨-, -, -, e⟩ | ⟨-, -, e⟩ <;> rw [e]
  case inr.inr.inl => exact ⟨rfl, rfl, rfl, .inl rfl⟩
  all_goals exact ⟨rfl, rfl, rfl, .inr ⟨rfl, rfl⟩⟩

theorem searchFrame_classifyTick (s : State) : s.SearchFrame (classifyTick s) := by
  rcases classifyTick_cases s with ⟨-, e⟩ | ⟨-, -, e⟩ | ⟨-, -, -, e⟩ | ⟨-, -, -, e⟩ <;> rw [e]
  case inr.inr.inr =>
    obtain ⟨hparams, hwcnt, hres, hfsm⟩ := searchFrame_detPhase
      ⟨s.cls.lvl, s.cls.plen, classify s.params s.cls.plen⟩ (s.withCls (clsEdge s.rx s.cls))
    exact ⟨hparams, hwcnt, hres, hfsm⟩
  all_goals exact searchFrame_withCls s _

/-! ## The same search without a limit -/

/-- The state in an elaboration without a limit on the search (R87), all else the same. -/
def State.withoutLimit (s : State) : State := { s with params := { s.params with lockTimeout := 0 } }

/-- R79 to R84: DET_PHASE does not read the limit. -/
theorem detPhase_withoutLimit (ph : Phase) (s : State) : detPhase ph s.withoutLimit = (detPhase ph s).withoutLimit := by
  obtain ⟨l, d, c⟩ := ph
  cases c with
  | short => rfl
  | valid =>
    simp only [detPhase, apply_ite State.withoutLimit]
    rfl

theorem classifyTick_withoutLimit (s : State) : classifyTick s.withoutLimit = (classifyTick s).withoutLimit := by
  rcases classifyTick_cases s with ⟨hl, e⟩ | ⟨hl, hr, e⟩ | ⟨hl, hr, hp, e⟩ | ⟨hl, hr, hp, e⟩ <;> rw [e]
  · exact classifyTick_first hl
  · exact classifyTick_same hl hr
  · exact classifyTick_partial hl hr hp
  · rw [classifyTick_delivered (s := s.withoutLimit) hl hr hp, ← detPhase_withoutLimit]
    rfl

/-! ## The end of the tick -/

/-- The new SEEK count fits the 32 bits of WCNT. -/
theorem searchTicks_toNat (s : State) : (BitVec.ofNat 32 s.searchTicks).toNat = s.searchTicks := by
  rw [← satSucc_wcnt]
  exact satSucc_toNat s.det.wcnt

/-- What the classifier and the detector leave in a SEEK tick of `s`, the tick counted (R88). -/
def State.searched (s : State) : State :=
  (classifyTick s).withDet { (classifyTick s).det with wcnt := BitVec.ofNat 32 s.searchTicks }

theorem searched_res (s : State) : s.searched.res = s.res := (searchFrame_classifyTick s).res

theorem searched_seek_or_locked {s : State} (hf : s.fsm = .seek) : s.searched.fsm = .seek ∨ s.searched.fsm = .locked := by
  rcases (searchFrame_classifyTick s).fsm with hl | ⟨hs, -⟩
  · exact .inr hl
  · exact .inl (hs.trans hf)

/-- Everything a SEEK tick can do with what the classifier and the detector leave (R88): keep it, because it locks or is within
the limit, or end the attempt by TIMEOUT. -/
theorem tickStep_search_cases {s : State} (hf : s.fsm = .seek) :
    ((s.searched.fsm = .locked ∨ s.WithinLimit) ∧ tickStep s = .next s.searched) ∨
      (s.searched.fsm = .seek ∧ s.searched.fr = s.fr ∧ ¬ s.WithinLimit ∧
        tickStep s = .next (finish .timeout 0 s.searched)) := by
  obtain ⟨hparams, hwcnt, -, hlock | ⟨hseek, hfr⟩⟩ := searchFrame_classifyTick s
  · exact .inl ⟨.inl hlock, tickStep_of_lock hf hwcnt hlock⟩
  · have hnot : (classifyTick s).fsm ≠ .locked := by simp [hseek, hf]
    have htick : tickStep s = .next (s.orTimeout s.searched) := by
      rw [tickStep_orTimeout hf rfl hparams hwcnt hnot, satSucc_wcnt]
      rfl
    rcases orTimeout_cases s s.searched with ⟨hin, e⟩ | ⟨hout, e⟩ <;> rw [e] at htick
    · exact .inl ⟨.inr hin, htick⟩
    · exact .inr ⟨hseek.trans hf, hfr, hout, htick⟩

/-- R88, R110: however a SEEK tick ends, the classifier and the detector have run. -/
theorem tickStep_search_units {s : State} (hf : s.fsm = .seek) :
    ∃ t, tickStep s = .next t ∧ t.cls = s.searched.cls ∧ t.det = s.searched.det := by
  rcases tickStep_search_cases hf with ⟨-, e⟩ | ⟨-, -, -, e⟩ <;> exact ⟨_, e, rfl, rfl⟩

theorem searched_withoutLimit (s : State) : s.withoutLimit.searched = s.searched.withoutLimit := by
  rw [State.searched, classifyTick_withoutLimit]
  rfl

/-- Settles O32: the tick without a limit leaves the same classifier and detector, because neither reads `LOCK_TIMEOUT`; the
outcomes are those of `tickStep_search_cases`. -/
theorem timeoutEndsTheSearch : Obligations.TimeoutEndsTheSearch := by
  intro s hf
  obtain ⟨u, hu, hcls, hdet⟩ := tickStep_search_units (s := s.withoutLimit) hf
  rw [searched_withoutLimit] at hcls hdet
  have hres := searched_res s
  rcases tickStep_search_cases hf with ⟨hend, e⟩ | ⟨-, hfr, hout, e⟩
  · refine ⟨s.searched, u, e, searchTicks_toNat s, hu, hcls.symm, hdet.symm, fun _ => ⟨?_, hres⟩,
      fun hout => .inl ⟨hend.resolve_right hout, hres⟩⟩
    rcases searched_seek_or_locked hf with h | h <;> simp [h]
  · refine ⟨_, u, e, searchTicks_toNat s, hu, hcls.symm, hdet.symm, fun hin => absurd hin hout,
      fun _ => .inr ⟨rfl, hfr, ?_⟩⟩
    rw [finish_res, hres]

/-! ## The whole step -/

/-- R41: every request runs the tick step, and goes on where it does. -/
theorem exec_goes_on {s u : State} (h : tickStep s = .next u) (i : Instr) : ∃ t, exec i s = .next t := by
  have hform : ∃ f, exec i s = onNext (tickStep s) f := by cases i <;> exact ⟨_, rfl⟩
  obtain ⟨f, e⟩ := hform
  exact ⟨f u, by rw [e, h, onNext_next]⟩

theorem step_goes_on {s u : State} (h : tickStep s = .next u) : ∃ t, step s = .next t := by
  obtain ⟨t, ht⟩ := exec_goes_on h (decode s.pins.req)
  unfold step
  split
  · exact ⟨_, rfl⟩
  · split
    · exact ⟨t.advance, by rw [ht, onNext_next]⟩
    · exact ⟨(u.withRdata 0x0000).advance, by rw [quietTick_of_tick h, onNext_next]⟩

/-- R60: a request in a busy tick leaves the sequencer to the tick step. -/
theorem HostEffect.fsm_of_busy {s u w : State} (h : HostEffect s u w) (hbusy : s.fsm ≠ .idle) : w.fsm = u.fsm := by
  cases h with
  | start hidle => exact absurd hidle hbusy
  | nothing | syncWord _ _ | pol _ _ | aux _ => rfl

/-- Settles O34: without a limit the tick is within it, so it does not end by TIMEOUT, and no request ends the attempt. -/
theorem searchWithoutLimitGoesOn : Obligations.SearchWithoutLimitGoesOn := by
  intro s hf hnolimit hrst
  rcases tickStep_search_cases hf with ⟨-, e⟩ | ⟨-, -, hout, -⟩
  · obtain ⟨t, ht⟩ := step_goes_on e
    refine ⟨t, ht, ?_⟩
    rcases step_cases ht with ⟨hr, -⟩ | ⟨-, u, w, r, hu, heffect, rfl⟩
    · simp [hrst] at hr
    · obtain rfl : s.searched = u := by rw [e] at hu; cases hu; rfl
      have hfsm : w.fsm = s.searched.fsm := heffect.fsm_of_busy (by simp [hf])
      rw [State.advance_fsm, State.withRdata_fsm, hfsm]
      exact searched_seek_or_locked hf
  · exact absurd (.inl hnolimit) hout

end Sys2Proof.Machine
end

section
/-! A LOCKED tick in which a byte completes (R92): what the sample and the store leave, and the gates of bytes 1, 2 and
`LEN + 4` (R93 to R95). -/

namespace Sys2Proof.Machine

/-! ## The byte stored -/

/-- R91: the shift register the sampler forms. -/
theorem shiftIn_sampleBit (s : State) : shiftIn s.fr.shreg (sampleBit s) = s.sampled := by
  unfold sampleBit State.sampled
  by_cases h : s.rx = s.pol
  · rw [if_pos h, beq_iff_eq.2 h]
    rfl
  · rw [if_neg h, beq_eq_false_iff_ne.2 h]
    rfl

/-- What a tick that completes a byte hands to the gate of its index (R90 to R92, R105): the timer loaded, the byte stored and
counted, and the running CRC updated. -/
def State.byteStored (s : State) : State :=
  { s with
    buf := Memory.set s.buf s.fr.idx.toNat s.sampled
    fr := { tmr := BitVec.ofNat 17 s.params.bitTicks, shreg := s.sampled, bitcnt := 0, idx := s.fr.idx + 1
            len := s.fr.len, crc := inlineCrc s.fr s.fr.idx.toNat s.sampled } }

theorem tickStep_byteDue {s : State} (h : s.ByteDue) :
    tickStep s = .next (byteGate s s.fr.idx.toNat s.sampled s.byteStored) := by
  obtain ⟨hlocked, htmr, hbit, hroom⟩ := h
  have hdue : s.fr.tmr - 1 = 0 := by simp [htmr]
  rw [tickStep_locked hlocked]
  rcases lockedTick_cases s with ⟨hwait, -⟩ | ⟨-, hbit', -⟩ | ⟨-, -, e⟩
  · exact absurd hdue hwait
  · exact absurd hbit hbit'
  · rw [e, shiftIn_sampleBit]
    rcases frByte_cases s s.sampled (s.withFr { s.fr with
        tmr := BitVec.ofNat 17 s.params.bitTicks, shreg := s.sampled, bitcnt := 0 }) with ⟨-, e'⟩ | ⟨hfull, -⟩
    · exact e'
    · exact absurd hroom hfull

theorem byteStored_of_idx {s : State} {i : BitVec 9} (h : s.fr.idx = i) :
    s.byteStored = { s with
      buf := s.byteStored.buf
      fr := { tmr := BitVec.ofNat 17 s.params.bitTicks, shreg := s.sampled, bitcnt := 0, idx := i + 1, len := s.fr.len
              crc := inlineCrc s.fr i.toNat s.sampled } } := by
  rw [← h]
  rfl

theorem bufRead_byteStored (s : State) (j : Nat) :
    bufRead s.byteStored j = if j = s.fr.idx.toNat then s.sampled else bufRead s j := by
  rw [bufRead_congr (s := s.byteStored) (t := s.withBuf (Memory.set s.buf s.fr.idx.toNat s.sampled)) rfl,
    bufRead_withBuf_set]
  exact if_congr eq_comm rfl rfl

/-! ## The gates -/

/-- R93, R95: two bytes as a word, the first one high. -/
theorem append_toNat (hi lo : Byte) : (hi ++ lo : Word).toNat = hi.toNat * 256 + lo.toNat := by
  rw [BitVec.toNat_append, ← Nat.shiftLeft_add_eq_or_of_lt lo.isLt, Nat.shiftLeft_eq]

theorem append_eq_iff_toNat (hi lo : Byte) (w : Word) :
    hi ++ lo = w ↔ hi.toNat * 256 + lo.toNat = w.toNat := by
  rw [← append_toNat, BitVec.toNat_inj]

theorem byteGate_sync (s : State) (v : Byte) (t : State) :
    byteGate s 1 v t =
      if (bufRead s 0).toNat * 256 + v.toNat = s.syncWord.toNat then t else finish .syncMismatch 0 t := by
  simp only [byteGate, syncGate, ne_eq, ite_not, if_true, append_eq_iff_toNat]

theorem byteGate_len (s : State) (v : Byte) (t : State) :
    byteGate s 2 v t =
      if v.toNat ≤ s.params.maxDataLen then t.withFr { t.fr with len := v }
      else finish .lengthOverflow 0 (t.withFr { t.fr with len := v }) := by
  simp only [← Nat.not_lt, ite_not]
  rfl

theorem byteGate_frameEnd {s : State} {i : Nat} (h3 : 3 ≤ i) (hi : i = s.fr.len.toNat + 4) (v : Byte) (t : State) :
    byteGate s i v t = frameEnd s v t := by
  rw [byteGate, if_neg (by omega), if_neg (by omega), if_pos ⟨h3, hi⟩]

/-- R110: no gate touches the packet buffer. -/
theorem byteGate_buf (s : State) (i : Nat) (v : Byte) (t : State) : (byteGate s i v t).buf = t.buf := by
  rcases byteGate_cases s i v t with ⟨rfl, -⟩ | ⟨rfl, -⟩ | ⟨-, -, e⟩ | ⟨-, -, -, e⟩
  · rw [byteGate_sync]
    split <;> rfl
  · rw [byteGate_len]
    split <;> rfl
  · rw [e]
    rfl
  · rw [e]

theorem bufRead_byteGate (s : State) (i : Nat) (v : Byte) (j : Nat) :
    bufRead (byteGate s i v s.byteStored) j = if j = s.fr.idx.toNat then s.sampled else bufRead s j := by
  rw [bufRead_congr (byteGate_buf s i v s.byteStored), bufRead_byteStored]

/-- R105: the trailer's last byte does not enter the running CRC. -/
theorem inlineCrc_frameEnd {fr : FrameReader} {i : Nat} (h3 : 3 ≤ i) (hi : i = fr.len.toNat + 4) (v : Byte) :
    inlineCrc fr i v = fr.crc :=
  if_neg (by omega)

/-- R95: `LEN + 5` fits the nine bits of COUNT. -/
theorem frameCount_toNat (len : Byte) : (len.setWidth 9 + 5).toNat = len.toNat + 5 := by
  bv_omega

/-! ## The obligations -/

/-- Settles O41: byte 1 is stored and enters the CRC, and the two outcomes are the two branches of the sync gate. -/
theorem syncGateChecksTheSyncWord : Obligations.SyncGateChecksTheSyncWord := by
  intro s hdue hidx
  have hnat : s.fr.idx.toNat = 1 := congrArg BitVec.toNat hidx
  have hlocked : s.fsm = .locked := hdue.left
  refine ⟨_, tickStep_byteDue hdue, fun j => hnat ▸ bufRead_byteGate s _ _ j, ?_⟩
  rw [hnat, byteGate_sync, byteStored_of_idx hidx, ← hlocked]
  split <;> rfl

/-- Settles O42: byte 2 is stored and enters the CRC, and both branches of the length gate load LEN. -/
theorem lengthGateBoundsTheLength : Obligations.LengthGateBoundsTheLength := by
  intro s hdue hidx
  have hnat : s.fr.idx.toNat = 2 := congrArg BitVec.toNat hidx
  have hlocked : s.fsm = .locked := hdue.left
  refine ⟨_, tickStep_byteDue hdue, fun j => hnat ▸ bufRead_byteGate s _ _ j, ?_⟩
  rw [hnat, byteGate_len, byteStored_of_idx hidx, ← hlocked]
  split <;> rfl

/-- Settles O43: the gate is FRAME_END, which loads the CRC registers from the fields of the start of the tick. -/
theorem frameEndComparesTheCrc : Obligations.FrameEndComparesTheCrc := by
  intro s hdue h3 hidx
  refine ⟨_, tickStep_byteDue hdue, fun j => hidx ▸ bufRead_byteGate s _ _ j, ?_⟩
  rw [byteGate_frameEnd h3 hidx]
  have hcount : (s.fr.idx + 1).toNat = s.fr.len.toNat + 5 := by bv_omega
  refine ⟨hcount, rfl, frameCount_toNat s.fr.len, rfl, append_toNat _ _, rfl, ?_⟩
  rw [← inlineCrc_frameEnd h3 hidx s.sampled]
  rfl

end Sys2Proof.Machine
end

section
/-! One equation per host operation (R41): a read answers with its register's word, a write that has an effect applies it after
the tick step, and every other write is ignored (R38). -/

namespace Sys2Proof.Machine

/-! ## Reads -/

theorem exec_rdCtrl (s : State) : exec .rdCtrl s = hostRead 0x0000 s := rfl
theorem exec_rdCount (s : State) : exec .rdCount s = hostRead (s.res.count.setWidth 16) s := rfl
theorem exec_rdCrcCalc (s : State) : exec .rdCrcCalc s = hostRead s.res.crcCalc s := rfl
theorem exec_rdCrcRx (s : State) : exec .rdCrcRx s = hostRead s.res.crcRx s := rfl
theorem exec_rdSyncWord (s : State) : exec .rdSyncWord s = hostRead s.syncWord s := rfl
theorem exec_rdConfig (s : State) : exec .rdConfig s = hostRead ((BitVec.ofBool s.pol).setWidth 16) s := rfl
theorem exec_rdIdx (s : State) : exec .rdIdx s = hostRead (s.fr.idx.setWidth 16) s := rfl
theorem exec_rdLen (s : State) : exec .rdLen s = hostRead (s.fr.len.setWidth 16) s := rfl
theorem exec_rdParam (s : State) : exec .rdParam s = hostRead (paramWord s.params) s := rfl
theorem exec_rdCrcAuxClr (s : State) : exec .rdCrcAuxClr s = hostRead 0x0000 s := rfl
theorem exec_rdCrcAuxData (s : State) : exec .rdCrcAuxData s = hostRead 0x0000 s := rfl
theorem exec_rdCrcAuxResult (s : State) : exec .rdCrcAuxResult s = hostRead (crcFinal s.aux) s := rfl
theorem exec_rdBitTicks (s : State) : exec .rdBitTicks s = hostRead (bitTicksWord s.params) s := rfl
theorem exec_rdBuf (i : BitVec 9) (s : State) : exec (.rdBuf i) s = hostRead (bufEntry s i) s := rfl
theorem exec_rdUnmapped (a : Addr) (s : State) : exec (.rdUnmapped a) s = hostRead 0x0000 s := rfl

/-! ## Writes that have an effect -/

theorem exec_wrCtrl (d : Word) (s : State) :
    exec (.wrCtrl d) s = hostWrite (fun t => if d.getLsbD 0 = true ∧ s.fsm = .idle then beginAttempt t else t) s := rfl

theorem exec_wrSyncWord (d : Word) (s : State) :
    exec (.wrSyncWord d) s = hostWrite (fun t => if s.fsm = .idle then t.withSyncWord d else t) s := rfl

theorem exec_wrConfig (d : Word) (s : State) :
    exec (.wrConfig d) s = hostWrite (fun t => if s.fsm = .idle then t.withPol (d.getLsbD 0) else t) s := rfl

theorem exec_wrCrcAuxClr (d : Word) (s : State) :
    exec (.wrCrcAuxClr d) s = hostWrite (fun t => if d.getLsbD 0 = true then t.withAux 0x0000 else t) s := rfl

theorem exec_wrCrcAuxData (d : Word) (s : State) :
    exec (.wrCrcAuxData d) s = hostWrite (fun t => t.withAux (crcUpdate s.aux (auxByte d))) s := rfl

/-- A write under a condition that holds: the tick step, then the write. -/
theorem hostWrite_if_pos {s t : State} {c : Prop} [Decidable c] (h : tickStep s = .next t) (hc : c) (f : State → State) :
    hostWrite (fun t => if c then f t else t) s = .next ((f t).withRdata 0x0000) := by
  rw [hostWrite_of_tick h, if_pos hc]

/-- A write under a condition that fails: the tick step alone. -/
theorem hostWrite_if_neg {s t : State} {c : Prop} [Decidable c] (h : tickStep s = .next t) (hc : ¬ c) (f : State → State) :
    hostWrite (fun t => if c then f t else t) s = .next (t.withRdata 0x0000) := by
  rw [hostWrite_of_tick h, if_neg hc]

/-! ## Writes that are ignored -/

/-- The writes to a read-only register, to the buffer window and to an unmapped address (R38). -/
def isIgnoredWrite : Instr → Bool
  | .wrStatus _ | .wrCount _ | .wrCrcCalc _ | .wrCrcRx _ | .wrIdx _ | .wrLen _ | .wrParam _ | .wrCrcAuxResult _
  | .wrBitTicks _ | .wrBuf _ _ | .wrUnmapped _ _ => true
  | _ => false

theorem exec_isIgnoredWrite {i : Instr} (h : isIgnoredWrite i = true) (s : State) : exec i s = ignoredWrite s := by
  cases i with
  | wrStatus _ | wrCount _ | wrCrcCalc _ | wrCrcRx _ | wrIdx _ | wrLen _ | wrParam _ | wrCrcAuxResult _ | wrBitTicks _
  | wrBuf _ _ | wrUnmapped _ _ => rfl
  | _ => cases h

/-- R38: an ignored write leaves what the tick step leaves, and drives 0x0000. -/
theorem exec_ignored_of_tick {i : Instr} {s t : State} (ht : tickStep s = .next t) (h : isIgnoredWrite i = true) :
    exec i s = .next (t.withRdata 0x0000) :=
  (exec_isIgnoredWrite h s).trans (ignoredWrite_of_tick ht)

end Sys2Proof.Machine
end

section
/-! The fields the tick step never writes (R110): the parameters, the configuration registers, AUX, and what the tick itself
brings and drives. -/

namespace Sys2Proof.Machine

/-- `t` differs from `s` at most in the fields of an attempt (the sequencer, the units, the results) and in the packet
buffer. -/
structure State.TickFrame (s t : State) : Prop where
  params : t.params = s.params
  syncWord : t.syncWord = s.syncWord
  pol : t.pol = s.pol
  aux : t.aux = s.aux
  rdata : t.rdata = s.rdata
  inputs : t.inputs = s.inputs
  tick : t.tick = s.tick

theorem State.TickFrame.trans {s t u : State} (h : s.TickFrame t) (h' : t.TickFrame u) : s.TickFrame u :=
  ⟨h'.params.trans h.params, h'.syncWord.trans h.syncWord, h'.pol.trans h.pol, h'.aux.trans h.aux, h'.rdata.trans h.rdata,
    h'.inputs.trans h.inputs, h'.tick.trans h.tick⟩

/-- Writing fields of the attempt and the buffer stays within the frame. -/
theorem tickFrame_update (s : State) {fsm : Fsm} {cls : Classifier} {det : Detector} {fr : FrameReader} {res : ResultRegs}
    {buf : Memory} : s.TickFrame { s with fsm := fsm, cls := cls, det := det, fr := fr, res := res, buf := buf } :=
  ⟨rfl, rfl, rfl, rfl, rfl, rfl, rfl⟩

theorem tickFrame_detPhase (ph : Phase) (s : State) : s.TickFrame (detPhase ph s) := by
  rcases detPhase_cases ph s with ⟨-, e⟩ | ⟨-, -, -, -, e⟩ | ⟨-, -, -, -, e⟩ | ⟨-, -, -, e⟩ | ⟨-, -, e⟩ <;> rw [e]
  all_goals exact tickFrame_update s

theorem tickFrame_classifyTick (s : State) : s.TickFrame (classifyTick s) := by
  have hcls (c : Classifier) : s.TickFrame (s.withCls c) := tickFrame_update s
  rcases classifyTick_cases s with ⟨-, e⟩ | ⟨-, -, e⟩ | ⟨-, -, -, e⟩ | ⟨-, -, -, e⟩ <;> rw [e]
  case inr.inr.inr => exact (hcls _).trans (tickFrame_detPhase _ _)
  all_goals exact hcls _

theorem tickFrame_byteGate (s : State) (i : Nat) (v : Byte) (t : State) : t.TickFrame (byteGate s i v t) := by
  rcases byteGate_cases s i v t with ⟨rfl, -⟩ | ⟨rfl, -⟩ | ⟨-, -, e⟩ | ⟨-, -, -, e⟩
  · rw [byteGate_sync]
    split <;> exact tickFrame_update t
  · rw [byteGate_len]
    split <;> exact tickFrame_update t
  · rw [e]
    exact tickFrame_update t
  · rw [e]
    exact tickFrame_update t

/-- Everything a LOCKED tick that goes on can do: change the frame reader alone, or complete a byte. -/
theorem tickStep_locked_cases {s u : State} (hf : s.fsm = .locked) (h : tickStep s = .next u) :
    (∃ fr, u = s.withFr fr) ∨
      (s.ByteDue ∧ u = byteGate s s.fr.idx.toNat s.sampled s.byteStored) := by
  have hlocked := h
  rw [tickStep_locked hf] at hlocked
  rcases lockedTick_cases s with ⟨-, e⟩ | ⟨-, -, e⟩ | ⟨htmr, hbit, e⟩ <;> rw [e] at hlocked
  · cases hlocked
    exact .inl ⟨_, rfl⟩
  · cases hlocked
    exact .inl ⟨_, rfl⟩
  · rcases frByte_cases s (shiftIn s.fr.shreg (sampleBit s)) (s.withFr { s.fr with
        tmr := BitVec.ofNat 17 s.params.bitTicks, shreg := shiftIn s.fr.shreg (sampleBit s), bitcnt := 0 }) with
      ⟨hroom, -⟩ | ⟨-, e'⟩
    · have hdue : s.ByteDue := ⟨hf, by bv_omega, hbit, hroom⟩
      rw [tickStep_byteDue hdue] at h
      cases h
      exact .inr ⟨hdue, rfl⟩
    · rw [e'] at hlocked
      cases hlocked

/-- R110: the tick step writes nothing but the attempt and the buffer. -/
theorem tickFrame_tickStep {s u : State} (h : tickStep s = .next u) : s.TickFrame u := by
  cases hf : s.fsm with
  | idle =>
    rw [tickStep_idle hf] at h
    cases h
    exact tickFrame_update s
  | seek =>
    rcases tickStep_search_cases hf with ⟨-, e⟩ | ⟨-, -, -, e⟩ <;> rw [e] at h <;> cases h
    all_goals exact (tickFrame_classifyTick s).trans (tickFrame_update _)
  | locked =>
    rcases tickStep_locked_cases hf h with ⟨fr, rfl⟩ | ⟨-, rfl⟩
    · exact tickFrame_update s
    · have hstored : s.TickFrame s.byteStored := tickFrame_update s
      exact hstored.trans (tickFrame_byteGate s _ _ _)

end Sys2Proof.Machine
end

section
/-! The reads (R113 to R143): each goes on with the tick step and answers from the state at the start of the tick. -/

namespace Sys2Proof.Machine

/-! ## The words read -/

/-- R57: in a legal elaboration the two fields of PARAM do not overlap. -/
theorem paramWord_toNat {p : Params} (h : p.Legal) : (paramWord p).toNat = p.minTrain * 256 + p.maxDataLen := by
  obtain ⟨-, -, -, htrain, hlen, -⟩ := h
  have hlow : (BitVec.ofNat 16 p.maxDataLen).toNat = p.maxDataLen := Nat.mod_eq_of_lt (by omega)
  have hhigh : (BitVec.ofNat 16 p.minTrain <<< 8).toNat = p.minTrain <<< 8 := by
    have hfit : p.minTrain <<< 8 < 2 ^ 16 := by
      rw [Nat.shiftLeft_eq]
      omega
    have hsmall : p.minTrain < 2 ^ 16 := by omega
    rw [BitVec.toNat_shiftLeft, BitVec.toNat_ofNat, Nat.mod_eq_of_lt hsmall, Nat.mod_eq_of_lt hfit]
  have hbyte : p.maxDataLen < 2 ^ 8 := by omega
  rw [paramWord, BitVec.or_comm, BitVec.toNat_or, hhigh, hlow, ← Nat.shiftLeft_add_eq_or_of_lt hbyte, Nat.shiftLeft_eq]

/-- R57: a legal bit period fits the 16 bits of BIT_TICKS. -/
theorem bitTicksWord_toNat {p : Params} (h : p.Legal) : (bitTicksWord p).toNat = p.bitTicks := by
  obtain ⟨-, hbit, -⟩ := h
  exact Nat.mod_eq_of_lt (by omega)

/-- R55: CONFIG shows POL in bit 0. -/
theorem configWord_eq (pol : Level) : (BitVec.ofBool pol).setWidth 16 = (if pol = true then 0x0001 else 0x0000 : Word) := by
  cases pol <;> rfl

theorem bufEntry_below {s : State} {i : BitVec 9} (h : i.toNat < s.params.cap) :
    bufEntry s i = (bufRead s i.toNat).setWidth 16 :=
  if_pos h

theorem bufEntry_above {s : State} {i : BitVec 9} (h : s.params.cap ≤ i.toNat) : bufEntry s i = 0x0000 :=
  if_neg (Nat.not_lt.2 h)

/-! ## The result registers in a running block -/

/-- R147: while an attempt runs, no result is recorded. -/
theorem State.Inv.res_of_busy {s : State} (hi : s.Inv) (hbusy : s.fsm ≠ .idle) : s.res = ResultRegs.cleared := by
  cases hf : s.fsm with
  | idle => exact absurd hf hbusy
  | seek => exact (hi.seekOk hf).noResult
  | locked => exact (hi.lockedOk hf).noResult

/-- R129: while an attempt runs, LEN is 0 until byte 2 completes. -/
theorem State.Inv.len_of_busy {s : State} (hi : s.Inv) (hbusy : s.fsm ≠ .idle) (hidx : s.fr.idx.toNat ≤ 2) :
    s.fr.len = 0 := by
  cases hf : s.fsm with
  | idle => exact absurd hf hbusy
  | seek => exact congrArg FrameReader.len (hi.seekOk hf).nothingRead
  | locked => exact (hi.lockedOk hf).noLength hidx

/-- R146: without a complete frame COUNT and the two CRC registers are 0. -/
theorem State.IdleOk.results_zero {s : State} (h : s.IdleOk) (hok : s.res.result ≠ .ok)
    (hcrc : s.res.result ≠ .crcMismatch) : s.res.count = 0 ∧ s.res.crcCalc = 0 ∧ s.res.crcRx = 0 := by
  cases hr : s.res.result <;> simp only [State.IdleOk, hr] at h
  case ok => exact absurd hr hok
  case crcMismatch => exact absurd hr hcrc
  case none =>
    rw [h]
    exact ⟨rfl, rfl, rfl⟩
  all_goals
    obtain ⟨-, ⟨hcount, hcalc, hrx, -⟩, -⟩ := h
    exact ⟨hcount, hcalc, hrx⟩

/-- R146: the sync gate ends an attempt after two bytes. -/
theorem State.IdleOk.of_syncMismatch {s : State} (h : s.IdleOk) (hr : s.res.result = .syncMismatch) : s.Aborted 2 := by
  simp only [State.IdleOk, hr] at h
  obtain ⟨-, haborted, -⟩ := h
  exact haborted

/-- R146: the length gate ends an attempt after three bytes. -/
theorem State.IdleOk.of_lengthOverflow {s : State} (h : s.IdleOk) (hr : s.res.result = .lengthOverflow) :
    s.Aborted 3 := by
  simp only [State.IdleOk, hr] at h
  obtain ⟨-, haborted, -⟩ := h
  exact haborted

/-- R117, R119, R121: COUNT and the two CRC registers are 0 while an attempt runs and after an abort. -/
theorem State.Inv.results_zero {s : State} (hi : s.Inv)
    (h : s.fsm ≠ .idle ∨ (s.res.result ≠ .ok ∧ s.res.result ≠ .crcMismatch)) :
    s.res.count = 0 ∧ s.res.crcCalc = 0 ∧ s.res.crcRx = 0 := by
  by_cases hf : s.fsm = .idle
  · obtain ⟨hok, hcrc⟩ := h.resolve_left (not_not_intro hf)
    exact (hi.idleOk hf).results_zero hok hcrc
  · rw [hi.res_of_busy hf]
    exact ⟨rfl, rfl, rfl⟩

/-! ## The obligations -/

/-- Settles O9: the words are those of `paramWord` and `bitTicksWord`, exact where the parameters fit their fields. -/
theorem constantReadsReturnTheirWord : Obligations.ConstantReadsReturnTheirWord := by
  intro s hroom
  obtain ⟨t, ht⟩ := tickStep_goes_on hroom
  have hread := hostRead_of_tick ht
  refine ⟨t, paramWord s.params, bitTicksWord s.params, ht, (exec_rdCtrl s).trans (hread _),
    (exec_rdCrcAuxClr s).trans (hread _), (exec_rdCrcAuxData s).trans (hread _), (exec_rdParam s).trans (hread _),
    (exec_rdBitTicks s).trans (hread _), BitVec.toNat_ofNat _ _, fun hlegal => ⟨rfl, ?_, ?_⟩⟩
  · exact paramWord_toNat hlegal
  · exact bitTicksWord_toNat hlegal

/-- Settles O10: the corner cases are what the invariant says of a busy block and of each way an attempt ends. -/
theorem resultReadsReturnTheirRegister : Obligations.ResultReadsReturnTheirRegister := by
  intro s hroom
  obtain ⟨t, ht⟩ := tickStep_goes_on hroom
  have hread := hostRead_of_tick ht
  refine ⟨⟨t, ht, (exec_rdCount s).trans (hread _), (exec_rdCrcCalc s).trans (hread _), (exec_rdCrcRx s).trans (hread _),
    (exec_rdIdx s).trans (hread _), (exec_rdLen s).trans (hread _)⟩, fun hi => ⟨hi.results_zero, ?_, ?_, hi.len_of_busy⟩⟩
  · intro hidle hr
    have habort := (hi.idleOk hidle).of_syncMismatch hr
    exact ⟨BitVec.eq_of_toNat_eq habort.idx, habort.count⟩
  · intro hidle hr
    exact BitVec.eq_of_toNat_eq ((hi.idleOk hidle).of_lengthOverflow hr).idx

/-- Settles O11: SYNC_WORD is read whole, POL zero-extended. -/
theorem configurationReadsReturnTheirRegister : Obligations.ConfigurationReadsReturnTheirRegister := by
  intro s hroom
  obtain ⟨t, ht⟩ := tickStep_goes_on hroom
  refine ⟨t, ht, (exec_rdSyncWord s).trans (hostRead_of_tick ht _), ?_⟩
  rw [exec_rdConfig, configWord_eq, hostRead_of_tick ht]

/-- Settles O13: AUX is outside what the tick step writes, and the final CRC of no bytes is 0xFFFF. -/
theorem auxResultReadIsFinalCrc : Obligations.AuxResultReadIsFinalCrc := by
  intro s hroom
  obtain ⟨t, ht⟩ := tickStep_goes_on hroom
  have hread : exec .rdCrcAuxResult s = .next (t.withRdata (crcFinal s.aux)) :=
    (exec_rdCrcAuxResult s).trans (hostRead_of_tick ht _)
  have hempty : crcFinal 0x0000 = 0xFFFF := by decide
  exact ⟨t, ht, (tickFrame_tickStep ht).aux, hread, fun hclear => by rw [hread, hclear, hempty]⟩

/-- Settles O14: the two cases are the two branches of a window entry's word. -/
theorem bufferReadReturnsByteOrZero : Obligations.BufferReadReturnsByteOrZero := by
  intro s i hroom
  obtain ⟨t, ht⟩ := tickStep_goes_on hroom
  refine ⟨t, ht, fun hbelow => ?_, fun habove => ?_⟩
  · rw [exec_rdBuf, bufEntry_below hbelow, hostRead_of_tick ht]
  · rw [exec_rdBuf, bufEntry_above habove, hostRead_of_tick ht]

/-- Settles O15: the address plays no part. -/
theorem unmappedAccessesReadZeroAndIgnoreWrites : Obligations.UnmappedAccessesReadZeroAndIgnoreWrites := by
  intro s a d hroom
  obtain ⟨t, ht⟩ := tickStep_goes_on hroom
  exact ⟨t, ht, (exec_rdUnmapped a s).trans (hostRead_of_tick ht _), exec_ignored_of_tick ht rfl⟩

end Sys2Proof.Machine
end

section
/-! The writes (R114 to R142): START and the configuration registers while IDLE only, the auxiliary port always, every other
write never. -/

namespace Sys2Proof.Machine

/-- R51, R114: what STATUS reads after START: BUSY and SEEK_HIGH. -/
theorem statusWord_beginAttempt (s : State) : statusWord (beginAttempt s) = 0x0005 := by
  unfold statusWord State.busy State.valid State.stateField
  rw [beginAttempt_fsm, beginAttempt_det, beginAttempt_res]
  decide

/-- R136: the auxiliary port takes bits 7..0 of the write data. -/
theorem auxByte_eq_extract (d : Word) : auxByte d = d.extractLsb' 0 8 := BitVec.setWidth_eq_extractLsb' (by decide)

/-- Settles O17: every write named is one of the ignored writes. -/
theorem readOnlyWritesChangeNothing : Obligations.ReadOnlyWritesChangeNothing := by
  intro s d i hroom
  obtain ⟨t, ht⟩ := tickStep_goes_on hroom
  have hignored (w : Instr) (h : isIgnoredWrite w = true) : exec w s = .next (t.withRdata 0x0000) :=
    exec_ignored_of_tick ht h
  exact ⟨t, ht, quietTick_of_tick ht, hignored _ rfl, hignored _ rfl, hignored _ rfl, hignored _ rfl, hignored _ rfl,
    hignored _ rfl, hignored _ rfl, hignored _ rfl, hignored _ rfl, hignored _ rfl⟩

/-- Settles O18: the IDLE tick step leaves the state as it is, so START clears the attempt fields of `s` itself; the busy test
reads the start of the tick. -/
theorem startBeginsAttemptOnlyWhileIdle : Obligations.StartBeginsAttemptOnlyWhileIdle := by
  refine fun s d => ⟨fun hstart hidle => ?_, fun hnot hroom => ?_⟩
  · have hexec : exec (.wrCtrl d) s = .next ((beginAttempt s).withRdata 0x0000) :=
      (exec_wrCtrl d s).trans (hostWrite_if_pos (tickStep_idle hidle) ⟨hstart, hidle⟩ _)
    exact ⟨_, hexec, statusWord_beginAttempt s, rfl⟩
  · obtain ⟨t, ht⟩ := tickStep_goes_on hroom
    have hrefused : ¬ (d.getLsbD 0 = true ∧ s.fsm = .idle) := by
      rintro ⟨hstart, hidle⟩
      rcases hnot with hclear | hbusy
      · exact Bool.false_ne_true (hclear.symm.trans hstart)
      · exact hbusy hidle
    exact ⟨t, ht, (exec_wrCtrl d s).trans (hostWrite_if_neg ht hrefused _)⟩

/-- Settles O19: the write is under the condition that the start-of-tick state is IDLE. -/
theorem syncWordWrittenOnlyWhileIdle : Obligations.SyncWordWrittenOnlyWhileIdle := by
  refine fun s d => ⟨fun hidle => ?_, fun hbusy hroom => ?_⟩
  · exact (exec_wrSyncWord d s).trans (hostWrite_if_pos (tickStep_idle hidle) hidle _)
  · obtain ⟨t, ht⟩ := tickStep_goes_on hroom
    exact ⟨t, ht, (exec_wrSyncWord d s).trans (hostWrite_if_neg ht hbusy _)⟩

/-- Settles O20: so is the write of POL. -/
theorem polarityWrittenOnlyWhileIdle : Obligations.PolarityWrittenOnlyWhileIdle := by
  refine fun s d => ⟨fun hidle => ?_, fun hbusy hroom => ?_⟩
  · exact (exec_wrConfig d s).trans (hostWrite_if_pos (tickStep_idle hidle) hidle _)
  · obtain ⟨t, ht⟩ := tickStep_goes_on hroom
    exact ⟨t, ht, (exec_wrConfig d s).trans (hostWrite_if_neg ht hbusy _)⟩

/-- Settles O21: the port's writes do not ask whether the block is busy, and set AUX alone. -/
theorem auxWritesChangeOnlyAux : Obligations.AuxWritesChangeOnlyAux := by
  intro s d hroom
  obtain ⟨t, ht⟩ := tickStep_goes_on hroom
  refine ⟨t, ht, fun hclear => ?_, fun hkeep => ?_, ?_⟩
  · exact (exec_wrCrcAuxClr d s).trans (hostWrite_if_pos ht hclear _)
  · exact (exec_wrCrcAuxClr d s).trans (hostWrite_if_neg ht (Bool.eq_false_iff.1 hkeep) _)
  · rw [← auxByte_eq_extract]
    exact (exec_wrCrcAuxData d s).trans (hostWrite_of_tick ht _)

end Sys2Proof.Machine
end

section
/-! The sequencer's transitions (R112): those of the tick step, each with its cause; START; and that no other request moves the
attempt. -/

namespace Sys2Proof.Machine

/-! ## The tick step's transitions -/

/-- What the tick step may do to the sequencer, the cause read from the start-of-tick state `s`: nothing; LOCK (R84); TIMEOUT
(R88); the end of the attempt at the sync gate, at the length gate or with the frame (R93 to R95). -/
inductive State.UnitTransition (s u : State) : Prop where
  | nothing (hfsm : u.fsm = s.fsm)
  | lock (hends : s.PhaseEnds) (hvalid : s.PhaseValid) (hhigh : s.cls.lvl = true) (hexpect : s.det.expect = true)
      (htest : s.LockTestPasses) (hfsm : u.fsm = .locked)
  | timeout (hseek : s.fsm = .seek) (hlimit : ¬ s.WithinLimit) (hfsm : u.fsm = .idle) (hres : u.res.result = .timeout)
  | syncMismatch (hdue : s.ByteDue) (hidx : s.fr.idx = 1)
      (hword : (bufRead s 0).toNat * 256 + s.sampled.toNat ≠ s.syncWord.toNat) (hfsm : u.fsm = .idle)
      (hres : u.res.result = .syncMismatch)
  | lengthOverflow (hdue : s.ByteDue) (hidx : s.fr.idx = 2) (hlen : s.params.maxDataLen < s.sampled.toNat)
      (hfsm : u.fsm = .idle) (hres : u.res.result = .lengthOverflow)
  | frameEnd (hdue : s.ByteDue) (h3 : 3 ≤ s.fr.idx.toNat) (hidx : s.fr.idx.toNat = s.fr.len.toNat + 4)
      (hfsm : u.fsm = .idle) (hres : u.res.result = .ok ∨ u.res.result = .crcMismatch)

/-- R81: the detector's lock test, as the numbers of `State.LockTestPasses`. -/
theorem State.lockTestPasses_of_lockTest {s : State} (h : lockTest s.params s.det = true) : s.LockTestPasses := by
  rw [lockTest_iff, satSucc_toNat] at h
  unfold State.LockTestPasses
  omega

/-- R79 to R84: DET_PHASE locks only on an expected valid high that passes the lock test. -/
theorem detPhase_locked {ph : Phase} {s : State} (hf : s.fsm ≠ .locked) (h : (detPhase ph s).fsm = .locked) :
    ph.cls = .valid ∧ ph.level = true ∧ s.det.expect = true ∧ lockTest s.params s.det = true := by
  rcases detPhase_cases ph s with ⟨-, e⟩ | ⟨-, -, -, -, e⟩ | ⟨hvalid, hhigh, hexpect, htest, -⟩ | ⟨-, -, -, e⟩ | ⟨-, -, e⟩
  case inr.inr.inl => exact ⟨hvalid, hhigh, hexpect, htest⟩
  all_goals
    rw [e] at h
    exact absurd h hf

/-- R84: the classifier and the detector lock only at the end of such a phase, its start seen. -/
theorem classifyTick_locked {s : State} (hf : s.fsm = .seek) (h : (classifyTick s).fsm = .locked) :
    s.PhaseEnds ∧ s.PhaseValid ∧ s.cls.lvl = true ∧ s.det.expect = true ∧ s.LockTestPasses := by
  have hnot (c : Classifier) : (s.withCls c).fsm ≠ .locked := by simp [hf]
  rcases classifyTick_cases s with ⟨-, e⟩ | ⟨-, -, e⟩ | ⟨-, -, -, e⟩ | ⟨hlvl, hrx, hseen, e⟩ <;> rw [e] at h
  case inr.inr.inr =>
    obtain ⟨hvalid, hhigh, hexpect, htest⟩ := detPhase_locked (hnot _) h
    have hlong : s.PhaseValid := by
      by_contra hshort
      rw [classify_of_not_phaseValid hshort] at hvalid
      cases hvalid
    exact ⟨⟨hf, hlvl, hseen, hrx⟩, hlong, hhigh, hexpect, State.lockTestPasses_of_lockTest htest⟩
  all_goals exact absurd h (hnot _)

theorem unitTransition_seek {s u : State} (hf : s.fsm = .seek) (h : tickStep s = .next u) : s.UnitTransition u := by
  rcases tickStep_search_cases hf with ⟨-, e⟩ | ⟨-, -, hlimit, e⟩ <;> rw [e] at h <;> cases h
  · rcases searched_seek_or_locked hf with hseek | hlock
    · exact .nothing (hseek.trans hf.symm)
    · obtain ⟨hends, hvalid, hhigh, hexpect, htest⟩ := classifyTick_locked hf hlock
      exact .lock hends hvalid hhigh hexpect htest hlock
  · exact .timeout hf hlimit rfl rfl

/-- R92 to R95: a completed byte ends the attempt only where its gate does. -/
theorem unitTransition_byteDue {s : State} (hdue : s.ByteDue) :
    s.UnitTransition (byteGate s s.fr.idx.toNat s.sampled s.byteStored) := by
  rcases byteGate_cases s s.fr.idx.toNat s.sampled s.byteStored with ⟨hidx, -⟩ | ⟨hidx, -⟩ | ⟨h3, hidx, e⟩ | ⟨-, -, -, e⟩
  · rw [hidx, byteGate_sync]
    split
    · exact .nothing rfl
    · rename_i hword
      exact .syncMismatch hdue (BitVec.eq_of_toNat_eq hidx) hword rfl rfl
  · rw [hidx, byteGate_len]
    split
    · exact .nothing rfl
    · rename_i hlen
      exact .lengthOverflow hdue (BitVec.eq_of_toNat_eq hidx) (Nat.not_le.1 hlen) rfl rfl
  · rw [e]
    refine .frameEnd hdue h3 hidx rfl ?_
    unfold frameEnd
    rw [finish_res]
    exact ite_eq_or_eq _ _ _
  · rw [e]
    exact .nothing rfl

/-- R112: the transitions of the tick step, in every state of the sequencer. -/
theorem unitTransition_tickStep {s u : State} (h : tickStep s = .next u) : s.UnitTransition u := by
  cases hf : s.fsm with
  | idle =>
    rw [tickStep_idle hf] at h
    cases h
    exact .nothing rfl
  | seek => exact unitTransition_seek hf h
  | locked =>
    rcases tickStep_locked_cases hf h with ⟨fr, rfl⟩ | ⟨hdue, rfl⟩
    · exact .nothing rfl
    · exact unitTransition_byteDue hdue

/-! ## The requests -/

/-- `t` has the attempt fields of `u` (R114): the sequencer, the units and the results. -/
structure State.SameAttempt (u t : State) : Prop where
  fsm : t.fsm = u.fsm
  cls : t.cls = u.cls
  det : t.det = u.det
  fr : t.fr = u.fr
  res : t.res = u.res

theorem State.SameAttempt.refl (u : State) : u.SameAttempt u := ⟨rfl, rfl, rfl, rfl, rfl⟩

theorem hostRead_sameAttempt {v : Word} {s u t : State} (hu : tickStep s = .next u) (h : hostRead v s = .next t) :
    u.SameAttempt t := by
  rw [hostRead_of_tick hu] at h
  cases h
  exact ⟨rfl, rfl, rfl, rfl, rfl⟩

theorem hostWrite_sameAttempt {f : State → State} {s u t : State} (hu : tickStep s = .next u)
    (h : hostWrite f s = .next t) (hf : u.SameAttempt (f u)) : u.SameAttempt t := by
  rw [hostWrite_of_tick hu] at h
  cases h
  exact ⟨hf.fsm, hf.cls, hf.det, hf.fr, hf.res⟩

/-- R60: a request other than an accepted START leaves the attempt to the tick step. -/
theorem exec_sameAttempt {i : Instr} {s u t : State} (hu : tickStep s = .next u) (h : exec i s = .next t)
    (hstart : ∀ d, i = .wrCtrl d → ¬ (d.getLsbD 0 = true ∧ s.fsm = .idle)) : u.SameAttempt t := by
  cases i with
  | wrCtrl d =>
    rw [exec_wrCtrl, hostWrite_if_neg hu (hstart d rfl)] at h
    cases h
    exact ⟨rfl, rfl, rfl, rfl, rfl⟩
  | wrSyncWord _ | wrConfig _ | wrCrcAuxClr _ =>
    refine hostWrite_sameAttempt hu h ?_
    split <;> exact ⟨rfl, rfl, rfl, rfl, rfl⟩
  | wrCrcAuxData _ => exact hostWrite_sameAttempt hu h ⟨rfl, rfl, rfl, rfl, rfl⟩
  | rdCtrl | rdStatus | rdCount | rdCrcCalc | rdCrcRx | rdSyncWord | rdConfig | rdIdx | rdLen | rdParam | rdCrcAuxClr
  | rdCrcAuxData | rdCrcAuxResult | rdBitTicks | rdBuf _ | rdUnmapped _ => exact hostRead_sameAttempt hu h
  | wrStatus _ | wrCount _ | wrCrcCalc _ | wrCrcRx _ | wrIdx _ | wrLen _ | wrParam _ | wrCrcAuxResult _ | wrBitTicks _
  | wrBuf _ _ | wrUnmapped _ _ => exact hostWrite_sameAttempt hu h (.refl u)

/-! ## The whole step -/

/-- The request on the port is a START that the block accepts (R114). -/
def State.StartAccepted (s : State) : Prop :=
  s.fsm = .idle ∧ s.pins.reqValid = true ∧ ∃ d, decode s.pins.req = .wrCtrl d ∧ d.getLsbD 0 = true

theorem step_of_reset {s : State} (h : s.pins.rst = true) : step s = .next (resetState s).advance := by
  rw [step, if_pos h]

theorem step_of_request {s : State} (h : s.pins.rst = false) (hreq : s.pins.reqValid = true) :
    step s = onNext (exec (decode s.pins.req) s) State.advance := by
  rw [step, if_neg (by simp [h]), if_pos hreq]

theorem step_of_quiet {s : State} (h : s.pins.rst = false) (hreq : s.pins.reqValid = false) :
    step s = onNext (quietTick s) State.advance := by
  rw [step, if_neg (by simp [h]), if_neg (by simp [hreq])]

/-- R114: an accepted START, as a step. -/
theorem step_of_startAccepted {s : State} (h : s.pins.rst = false) (hs : s.StartAccepted) :
    step s = .next ((beginAttempt s).withRdata 0x0000).advance := by
  obtain ⟨hidle, hreq, d, hd, hbit⟩ := hs
  rw [step_of_request h hreq, hd, exec_wrCtrl, hostWrite_if_pos (tickStep_idle hidle) ⟨hbit, hidle⟩, onNext_next]

/-- R60, R110: in every other step without reset the attempt is as the tick step leaves it. -/
theorem step_sameAttempt {s t : State} (hrst : s.pins.rst = false) (hs : ¬ s.StartAccepted) (h : step s = .next t) :
    ∃ u, tickStep s = .next u ∧ u.SameAttempt t := by
  cases hreq : s.pins.reqValid with
  | true =>
    rw [step_of_request hrst hreq] at h
    obtain ⟨w, hw, rfl⟩ := onNext_eq_next.1 h
    obtain ⟨u, -, -, hu, -⟩ := exec_effect hw
    obtain ⟨hfsm, hcls, hdet, hfr, hres⟩ := exec_sameAttempt hu hw
      fun d hd ⟨hbit, hidle⟩ => hs ⟨hidle, hreq, d, hd, hbit⟩
    exact ⟨u, hu, hfsm, hcls, hdet, hfr, hres⟩
  | false =>
    rw [step_of_quiet hrst hreq] at h
    obtain ⟨w, hw, rfl⟩ := onNext_eq_next.1 h
    obtain ⟨u, hu, rfl⟩ := onNext_eq_next.1 hw
    exact ⟨u, hu, rfl, rfl, rfl, rfl, rfl⟩

/-- Settles O46: a step is reset, an accepted START, or leaves the sequencer to the tick step, whose transitions are those of
`State.UnitTransition`. -/
theorem onlyListedTransitions : Obligations.OnlyListedTransitions := by
  intro s t h
  cases hrst : s.pins.rst with
  | true =>
    rw [step_of_reset hrst] at h
    cases h
    exact .inl ⟨rfl, rfl⟩
  | false =>
    refine .inr ⟨rfl, ?_⟩
    by_cases hs : s.StartAccepted
    · rw [step_of_startAccepted hrst hs] at h
      cases h
      obtain ⟨hidle, hreq, hstart⟩ := hs
      exact .inr (.inl ⟨hidle, rfl, hreq, hstart⟩)
    · obtain ⟨u, hu, hsame⟩ := step_sameAttempt hrst hs h
      rw [hsame.fsm, hsame.res]
      cases unitTransition_tickStep hu with
      | nothing hfsm => exact .inl hfsm
      | lock hends hvalid hhigh hexpect htest hfsm =>
        exact .inr (.inr (.inl ⟨hends, hvalid, hhigh, hexpect, htest, hfsm⟩))
      | timeout hseek hlimit hfsm hres => exact .inr (.inr (.inr (.inl ⟨hseek, hlimit, hfsm, hres⟩)))
      | syncMismatch hdue hidx hword hfsm hres =>
        exact .inr (.inr (.inr (.inr (.inl ⟨hdue, hidx, hword, hfsm, hres⟩))))
      | lengthOverflow hdue hidx hlen hfsm hres =>
        exact .inr (.inr (.inr (.inr (.inr (.inl ⟨hdue, hidx, hlen, hfsm, hres⟩)))))
      | frameEnd hdue h3 hidx hfsm hres =>
        exact .inr (.inr (.inr (.inr (.inr (.inr ⟨hdue, h3, hidx, hfsm, hres⟩)))))

end Sys2Proof.Machine
end

section
/-! Reset (R160): the two status outputs after a reset, and the whole state a tick with `rst` high leaves. -/

namespace Sys2Proof.Machine

@[simp] theorem State.advance_doneO (s : State) : s.advance.doneO = s.doneO := rfl
@[simp] theorem State.advance_busyO (s : State) : s.advance.busyO = s.busyO := rfl

/-- R160: a running attempt leaves no result, so `done_o` is low. -/
@[simp] theorem resetState_doneO (s : State) : (resetState s).doneO = false := by
  rw [State.doneO, resetState_res, ResultRegs.cleared]

/-- R160: the block is IDLE, so `busy_o` is low. -/
@[simp] theorem resetState_busyO (s : State) : (resetState s).busyO = false := by
  rw [State.busyO, State.busy, resetState_fsm, bne_self_eq_false]

/-- Settles O8: the step is `resetState` at the tick boundary, which sets every field but the buffer, the parameters and the
model's own `inputs` and `tick`; the two outputs are views of the fields set. -/
theorem resetTickClearsAllButBuffer : Obligations.ResetTickClearsAllButBuffer := by
  intro s hrst
  refine ⟨(resetState s).advance, step_of_reset hrst, ?fields, ?done, ?busy⟩
  case fields => rfl
  case done => rw [State.advance_doneO, resetState_doneO]
  case busy => rw [State.advance_busyO, resetState_busyO]

end Sys2Proof.Machine
end

section
/-! Each way a LOCKED tick can go, from the bit timer and the bit count alone (R90 to R92). -/

namespace Sys2Proof.Machine

/-- R90: the timer is decremented, so it runs out exactly where it stood at 1. -/
theorem timerDue_iff (s : State) : s.fr.tmr - 1 = 0 ↔ s.fr.tmr = 1 := by
  bv_omega

theorem tickStep_wait {s : State} (hf : s.fsm = .locked) (htmr : s.fr.tmr ≠ 1) :
    tickStep s = .next (s.withFr { s.fr with tmr := s.fr.tmr - 1 }) := by
  rw [tickStep_locked hf, lockedTick, if_neg (mt (timerDue_iff s).1 htmr)]

theorem tickStep_sample {s : State} (hf : s.fsm = .locked) (htmr : s.fr.tmr = 1) (hbit : s.fr.bitcnt ≠ 7) :
    tickStep s = .next (s.withFr { s.fr with
      tmr := BitVec.ofNat 17 s.params.bitTicks, shreg := s.sampled, bitcnt := s.fr.bitcnt + 1 }) := by
  rw [tickStep_locked hf, lockedTick, if_pos ((timerDue_iff s).2 htmr), frSample, if_neg hbit, shiftIn_sampleBit]
  rfl

theorem frByte_outside {s t : State} (hfull : t.params.cap ≤ s.fr.idx.toNat) (v : Byte) :
    frByte s v t = .fault .bufWriteOutsideBuffer := by
  rcases frByte_cases s v t with ⟨hroom, -⟩ | ⟨-, e⟩
  · exact absurd hroom (Nat.not_lt.2 hfull)
  · exact e

/-- R13: the byte that would fall outside the buffer is the one BufWrite has no effect for (log 6). -/
theorem tickStep_outside {s : State} (hf : s.fsm = .locked) (htmr : s.fr.tmr = 1) (hbit : s.fr.bitcnt = 7)
    (hfull : s.params.cap ≤ s.fr.idx.toNat) : tickStep s = .fault .bufWriteOutsideBuffer := by
  rw [tickStep_locked hf, lockedTick, if_pos ((timerDue_iff s).2 htmr), frSample, if_pos hbit]
  refine frByte_outside ?_ _
  exact hfull

/-- Everything a LOCKED tick that goes on can do, each with its cause: wait, take a bit, or complete a byte. -/
inductive State.LockedTick (s : State) : State → Prop where
  | wait (htmr : s.fr.tmr ≠ 1) : s.LockedTick (s.withFr { s.fr with tmr := s.fr.tmr - 1 })
  | sample (htmr : s.fr.tmr = 1) (hbit : s.fr.bitcnt ≠ 7) :
      s.LockedTick (s.withFr { s.fr with
        tmr := BitVec.ofNat 17 s.params.bitTicks, shreg := s.sampled, bitcnt := s.fr.bitcnt + 1 })
  | byte (hdue : s.ByteDue) : s.LockedTick (byteGate s s.fr.idx.toNat s.sampled s.byteStored)

theorem lockedTick_of_tickStep {s u : State} (hf : s.fsm = .locked) (h : tickStep s = .next u) : s.LockedTick u := by
  by_cases htmr : s.fr.tmr = 1
  · by_cases hbit : s.fr.bitcnt = 7
    · by_cases hroom : s.fr.idx.toNat < s.params.cap
      · rw [tickStep_byteDue ⟨hf, htmr, hbit, hroom⟩] at h
        cases h
        exact .byte ⟨hf, htmr, hbit, hroom⟩
      · rw [tickStep_outside hf htmr hbit (Nat.not_lt.1 hroom)] at h
        cases h
    · rw [tickStep_sample hf htmr hbit] at h
      cases h
      exact .sample htmr hbit
  · rw [tickStep_wait hf htmr] at h
    cases h
    exact .wait htmr

/-- R92: the bytes that bring no gate. -/
theorem byteGate_none {s : State} {i : Nat} (h : i = 0 ∨ (3 ≤ i ∧ i ≠ s.fr.len.toNat + 4)) (v : Byte) (t : State) :
    byteGate s i v t = t := by
  rcases byteGate_cases s i v t with ⟨rfl, -⟩ | ⟨rfl, -⟩ | ⟨h3, hi, -⟩ | ⟨-, -, -, e⟩
  case inr.inr.inr => exact e
  all_goals omega

/-- Settles O38: a timer of at least 2 does not stand at 1. -/
theorem bitTimerCountsDown : Obligations.BitTimerCountsDown := by
  intro s hf htmr
  have hne : s.fr.tmr ≠ 1 := fun h => by simp [h] at htmr
  have hcount : s.fr.tmr - 1 = BitVec.ofNat 17 (s.fr.tmr.toNat - 1) := by bv_omega
  rw [tickStep_wait hf hne, hcount]
  rfl

/-- Settles O39: the bit count does not wrap inside a byte. -/
theorem sampleShiftsOneBitIn : Obligations.SampleShiftsOneBitIn := by
  intro s hf htmr hbit
  have hcount : s.fr.bitcnt + 1 = BitVec.ofNat 3 (s.fr.bitcnt.toNat + 1) := by bv_omega
  rw [tickStep_sample hf htmr hbit, hcount]
  rfl

/-- Settles O40: the byte is stored and counted as for every byte, and no gate runs. -/
theorem completedByteIsStored : Obligations.CompletedByteIsStored := by
  intro s hdue hidx
  have hnone : s.fr.idx.toNat = 0 ∨ (3 ≤ s.fr.idx.toNat ∧ s.fr.idx.toNat ≠ s.fr.len.toNat + 4) :=
    hidx.imp_left (congrArg BitVec.toNat)
  refine ⟨_, tickStep_byteDue hdue, bufRead_byteGate s _ _, ?_⟩
  rw [byteGate_none hnone]
  rfl

theorem exec_fault {s : State} {r : Fault} (h : tickStep s = .fault r) (i : Instr) : exec i s = .fault r := by
  have hform : ∃ f, exec i s = onNext (tickStep s) f := by cases i <;> exact ⟨_, rfl⟩
  obtain ⟨f, e⟩ := hform
  rw [e, h, onNext_fault]

/-- Settles O44: the tick step stops, and every request runs it. -/
theorem byteOutsideBufferFaults : Obligations.ByteOutsideBufferFaults := by
  intro s i hf htmr hbit hfull
  have hfault := tickStep_outside hf htmr hbit hfull
  exact ⟨exec_fault hfault i, by rw [quietTick, hfault, onNext_fault]⟩

end Sys2Proof.Machine
end

section
/-! The bytes an attempt has stored (R92, R105): the frame so far, and the running CRC over it as one more byte is stored. -/

namespace Sys2Proof.Machine

theorem frameBytes_zero (s : State) : s.frameBytes 0 = [] := rfl

theorem frameBytes_succ (s : State) (n : Nat) : s.frameBytes (n + 1) = s.frameBytes n ++ [bufRead s n] := by
  rw [State.frameBytes, List.range_succ, List.map_append]
  rfl

theorem frameBytes_congr {s t : State} {n : Nat} (h : ∀ i, i < n → bufRead s i = bufRead t i) :
    s.frameBytes n = t.frameBytes n :=
  List.map_congr_left fun i hi => h i (List.mem_range.1 hi)

@[simp] theorem frameBytes_length (s : State) (n : Nat) : (s.frameBytes n).length = n := by
  rw [State.frameBytes, List.length_map, List.length_range]

theorem crcFold_append (c : Word) (bs bs' : List Byte) : crcFold c (bs ++ bs') = crcFold (crcFold c bs) bs' :=
  List.foldl_append

theorem crcFold_singleton (c : Word) (b : Byte) : crcFold c [b] = crcUpdate c b := rfl

theorem bufRead_byteStored_idx (s : State) : bufRead s.byteStored s.fr.idx.toNat = s.sampled := by
  rw [bufRead_byteStored, if_pos rfl]

theorem bufRead_byteStored_below {s : State} {j : Nat} (h : j < s.fr.idx.toNat) :
    bufRead s.byteStored j = bufRead s j := by
  rw [bufRead_byteStored, if_neg (Nat.ne_of_lt h)]

theorem frameBytes_byteStored {s : State} {n : Nat} (h : n ≤ s.fr.idx.toNat) :
    s.byteStored.frameBytes n = s.frameBytes n :=
  frameBytes_congr fun _ hi => bufRead_byteStored_below (hi.trans_le h)

/-- R92: IDX counts without wrapping below CAP, in a legal elaboration. -/
theorem State.ByteDue.idx_succ {s : State} (h : s.ByteDue) (hlegal : s.params.Legal) :
    (s.fr.idx + 1).toNat = s.fr.idx.toNat + 1 := by
  obtain ⟨-, -, -, hroom⟩ := h
  obtain ⟨-, -, -, -, hlen, -⟩ := hlegal
  have hsmall : s.fr.idx.toNat + 1 < 2 ^ 9 := by omega
  rw [BitVec.toNat_add, show (1 : BitVec 9).toNat = 1 from rfl, Nat.mod_eq_of_lt hsmall]

/-- The running CRC is that of the stored bytes but the trailer's (R105). -/
def State.CrcHeld (s : State) : Prop :=
  s.fr.crc = crcFold 0 (s.frameBytes (min s.fr.idx.toNat (s.fr.len.toNat + 3)))

/-- R105: storing a byte keeps the running CRC in step: it enters the CRC exactly where it is not of the trailer. -/
theorem inlineCrc_byteStored {s : State} (h : s.CrcHeld) :
    inlineCrc s.fr s.fr.idx.toNat s.sampled =
      crcFold 0 (s.byteStored.frameBytes (min (s.fr.idx.toNat + 1) (s.fr.len.toNat + 3))) := by
  by_cases hbody : s.fr.idx.toNat ≤ s.fr.len.toNat + 2
  · have hcrc : inlineCrc s.fr s.fr.idx.toNat s.sampled = crcUpdate s.fr.crc s.sampled := if_pos (.inr hbody)
    rw [State.CrcHeld, Nat.min_eq_left (by omega)] at h
    rw [hcrc, Nat.min_eq_left (by omega), frameBytes_succ, frameBytes_byteStored (Nat.le_refl _), bufRead_byteStored_idx,
      crcFold_append, ← h, crcFold_singleton]
  · have hcrc : inlineCrc s.fr s.fr.idx.toNat s.sampled = s.fr.crc := if_neg (by omega)
    rw [State.CrcHeld, Nat.min_eq_right (by omega)] at h
    rw [hcrc, Nat.min_eq_right (by omega), frameBytes_byteStored (by omega), h]

end Sys2Proof.Machine
end

section
/-! The invariant `State.Inv`, kept by every step: by each unit's part of the tick, by every request, and by reset. -/

namespace Sys2Proof.Machine

/-! ## The invariant in each state of the sequencer -/

/-- What the invariant says of the parameters and the buffer, whatever the sequencer does. -/
structure State.BlockOk (s : State) : Prop where
  legal : s.params.Legal
  bufWf : Memory.wf s.buf = true
  bufBelow : Memory.Below s.buf s.params.cap

theorem State.Inv.blockOk {s : State} (h : s.Inv) : s.BlockOk := ⟨h.legal, h.bufWf, h.bufBelow⟩

theorem State.BlockOk.congr {s t : State} (h : s.BlockOk) (hp : t.params = s.params) (hb : t.buf = s.buf) : t.BlockOk :=
  ⟨hp ▸ h.legal, hb ▸ h.bufWf, hp ▸ hb ▸ h.bufBelow⟩

theorem State.BlockOk.inv_of_idle {s : State} (h : s.BlockOk) (hf : s.fsm = .idle) (hok : s.IdleOk) : s.Inv :=
  ⟨h.legal, h.bufWf, h.bufBelow, fun _ => hok, fun hf' => by simp [hf] at hf', fun hf' => by simp [hf] at hf'⟩

theorem State.BlockOk.inv_of_seek {s : State} (h : s.BlockOk) (hf : s.fsm = .seek) (hok : s.SeekOk) : s.Inv :=
  ⟨h.legal, h.bufWf, h.bufBelow, fun hf' => by simp [hf] at hf', fun _ => hok, fun hf' => by simp [hf] at hf'⟩

theorem State.BlockOk.inv_of_locked {s : State} (h : s.BlockOk) (hf : s.fsm = .locked) (hok : s.LockedOk) : s.Inv :=
  ⟨h.legal, h.bufWf, h.bufBelow, fun hf' => by simp [hf] at hf', fun hf' => by simp [hf] at hf', fun _ => hok⟩

/-- R147: before any attempt has finished, nothing is recorded. -/
theorem idleOk_of_cleared {s : State} (h : s.res = ResultRegs.cleared) : s.IdleOk := by
  rw [State.IdleOk, h]
  rfl

/-! ## SEEK -/

/-- A SEEK tick keeps what holds while SEEK where the new phase and the new runs fit together. -/
theorem State.SeekOk.withSearch {s : State} {c : Classifier} {d : Detector} (h : s.SeekOk)
    (hfirst : c.haveLvl = false → c.pvalid = false) (hbegun : c.haveLvl = true → 1 ≤ c.plen.toNat)
    (hstep : d.expect = true → d.lrun = d.hrun)
    (hahead : d.expect = false →
      d.hrun.toNat = d.lrun.toNat + 1 ∧ c.haveLvl = true ∧ c.pvalid = true ∧ c.lvl = false)
    (htrain : d.hrun.toNat < s.params.minTrain)
    (hlimit : s.params.lockTimeout ≠ 0 → d.wcnt.toNat < s.params.lockTimeout) :
    ((s.withCls c).withDet d).SeekOk :=
  ⟨hstep, hahead, htrain, hlimit, hfirst, hbegun, h.nothingRead, h.noResult⟩

theorem satSucc_pos {w : Nat} (hw : 0 < w) (v : BitVec w) : 1 ≤ (satSucc v).toNat := by
  have := Nat.one_lt_two_pow (Nat.ne_of_gt hw)
  rw [satSucc_toNat]
  omega

/-- R81: below `MIN_TRAIN` a count does not saturate. -/
theorem satSucc_below_train {p : Params} {v : BitVec 4} (hlegal : p.Legal) (h : v.toNat < p.minTrain) :
    (satSucc v).toNat = v.toNat + 1 := by
  obtain ⟨-, -, -, htrain, -⟩ := hlegal
  exact satSucc_toNat_of_lt (by omega)

/-- The same after an edge, where the phase that begins is one whose start was seen. -/
theorem State.SeekOk.afterEdge {s : State} {d : Detector} (h : s.SeekOk) (hlvl : s.cls.haveLvl = true)
    (hstep : d.expect = true → d.lrun = d.hrun)
    (hahead : d.expect = false → d.hrun.toNat = d.lrun.toNat + 1 ∧ s.rx = false)
    (htrain : d.hrun.toNat < s.params.minTrain) (hw : d.wcnt = s.det.wcnt) :
    ((s.withCls (clsEdge s.rx s.cls)).withDet d).SeekOk := by
  rw [clsEdge_of_haveLvl hlvl]
  refine h.withSearch (fun hl => nomatch hl) (fun _ => Nat.le_refl 1) hstep (fun he => ?_) htrain (hw ▸ h.belowLimit)
  obtain ⟨hruns, hlow⟩ := hahead he
  exact ⟨hruns, rfl, rfl, hlow⟩

/-- R80 to R83: a delivered phase on which the search goes on keeps the runs in step (R85, R86). -/
theorem State.SeekOk.detPhase {s : State} (h : s.SeekOk) (hlegal : s.params.Legal) (hends : s.PhaseEnds) (c : PhaseClass)
    (hgo : (detPhase ⟨s.cls.lvl, s.cls.plen, c⟩ (s.withCls (clsEdge s.rx s.cls))).fsm ≠ .locked) :
    (detPhase ⟨s.cls.lvl, s.cls.plen, c⟩ (s.withCls (clsEdge s.rx s.cls))).SeekOk := by
  obtain ⟨-, hlvl, -, hrx⟩ := hends
  have htrain := h.belowTrain
  have hhigh := satSucc_below_train hlegal htrain
  have hmin : 1 ≤ s.params.minTrain := by omega
  rcases detPhase_cases ⟨s.cls.lvl, s.cls.plen, c⟩ (s.withCls (clsEdge s.rx s.cls))
    with ⟨-, e⟩ | ⟨-, hl, he, htest, e⟩ | ⟨-, -, -, -, e⟩ | ⟨-, hl, he, e⟩ | ⟨-, hne, e⟩ <;> rw [e] at hgo ⊢
  · exact h.afterEdge hlvl (fun _ => rfl) (fun he => nomatch he) hmin rfl
  · have hruns : s.det.lrun.toNat = s.det.hrun.toNat := congrArg BitVec.toNat (h.inStep he)
    have hcount : ¬ s.params.minTrain ≤ (satSucc s.det.hrun).toNat := fun hle => by
      have hpass := (lockTest_iff s.params s.det).2 ⟨hle, by omega⟩
      exact Bool.false_ne_true (htest.symm.trans hpass)
    refine h.afterEdge hlvl (fun he' => nomatch he') (fun _ => ⟨?_, ?_⟩) (Nat.lt_of_not_le hcount) rfl
    · exact hhigh.trans (congrArg (· + 1) hruns.symm)
    · exact Bool.eq_false_iff.2 fun hr => hrx (hr.trans hl.symm)
  · exact absurd rfl hgo
  · obtain ⟨hruns, -⟩ := h.oneAhead he
    have hlow := satSucc_below_train (v := s.det.lrun) hlegal (by omega)
    exact h.afterEdge hlvl (fun _ => BitVec.eq_of_toNat_eq (hlow.trans hruns.symm)) (fun he' => nomatch he') htrain rfl
  · have hexpect : s.det.expect = true := by
      by_contra hnot
      have he := Bool.eq_false_iff.2 hnot
      obtain ⟨-, -, -, hlow⟩ := h.oneAhead he
      exact hne (hlow.trans he.symm)
    exact h.afterEdge hlvl h.inStep (fun he => nomatch hexpect.symm.trans he) htrain rfl

theorem State.SeekOk.classifyTick {s : State} (h : s.SeekOk) (hlegal : s.params.Legal) (hf : s.fsm = .seek)
    (hgo : (classifyTick s).fsm ≠ .locked) : (classifyTick s).SeekOk := by
  rcases classifyTick_cases s with ⟨hl, e⟩ | ⟨hl, hr, e⟩ | ⟨hl, hr, hp, e⟩ | ⟨hl, hr, hp, e⟩ <;> rw [e] at hgo ⊢
  · refine h.withSearch (c := clsFirst s.rx) (d := s.det) (fun _ => rfl) (fun _ => Nat.le_refl 1) h.inStep
      (fun he => ?_) h.belowTrain h.belowLimit
    obtain ⟨-, hseen, -⟩ := h.oneAhead he
    exact nomatch hl.symm.trans hseen
  · exact h.withSearch (c := clsSame s.cls) (d := s.det) h.firstSample (fun _ => satSucc_pos (by decide) _) h.inStep
      h.oneAhead h.belowTrain h.belowLimit
  · refine h.withSearch (c := clsEdge s.rx s.cls) (d := s.det) (fun hn => nomatch hl.symm.trans hn)
      (fun _ => Nat.le_refl 1) h.inStep (fun he => ?_) h.belowTrain h.belowLimit
    obtain ⟨-, -, hseen, -⟩ := h.oneAhead he
    exact nomatch hp.symm.trans hseen
  · exact h.detPhase hlegal ⟨hf, hl, hp, hr⟩ _ hgo

/-- R88: the SEEK count the tick leaves is below the limit where the tick is within it. -/
theorem State.SeekOk.searched {s : State} (h : s.SeekOk) (hlegal : s.params.Legal) (hf : s.fsm = .seek)
    (hgo : s.searched.fsm ≠ .locked) (hin : s.WithinLimit) : s.searched.SeekOk := by
  have hok := h.classifyTick hlegal hf hgo
  have hparams := (searchFrame_classifyTick s).params
  refine hok.withSearch (c := (Machine.classifyTick s).cls) hok.firstSample hok.phaseBegun hok.inStep hok.oneAhead
    hok.belowTrain fun hl => ?_
  rw [hparams] at hl ⊢
  exact (searchTicks_toNat s).trans_lt (hin.resolve_left hl)

/-! ## Lock and TIMEOUT -/

/-- R90: a wait of `BIT_TICKS` fits the 17 bits of TMR, and is one that the bit timer may hold. -/
theorem bitWait_toNat {p : Params} (h : p.Legal) : (BitVec.ofNat 17 p.bitTicks).toNat = p.bitTicks := by
  obtain ⟨-, hbit, -⟩ := h
  exact Nat.mod_eq_of_lt (by omega)

/-- R84: nothing has been read when LOCK arms the frame reader. -/
theorem State.JustLocked.lockedOk {s : State} (h : s.JustLocked) (hlegal : s.params.Legal)
    (hruns : s.det.hrun.toNat = s.params.minTrain ∧ s.det.lrun.toNat + 1 = s.params.minTrain ∧ s.det.expect = false)
    (hres : s.res = ResultRegs.cleared) : s.LockedOk := by
  obtain ⟨-, hfr⟩ := h
  have hidx : s.fr.idx.toNat = 0 := by rw [hfr]; rfl
  have hwait := firstWait_toNat hlegal
  obtain ⟨hbit, -⟩ := hlegal
  refine ⟨hruns, ?_, hidx ▸ Memory.stored_zero _, ?_, fun h2 => by omega, fun _ => by rw [hfr]; rfl, fun h3 => by omega,
    hres⟩
  · rw [hfr, hwait, Params.offsetTicks]
    omega
  · rw [hidx, Nat.zero_min, frameBytes_zero, hfr]
    rfl

theorem detPhase_keeps (ph : Phase) (s : State) :
    (detPhase ph s).buf = s.buf ∧ (detPhase ph s).fr.len = s.fr.len := by
  rcases detPhase_cases ph s with ⟨-, e⟩ | ⟨-, -, -, -, e⟩ | ⟨-, -, -, -, e⟩ | ⟨-, -, -, e⟩ | ⟨-, -, e⟩ <;> rw [e]
  all_goals exact ⟨rfl, rfl⟩

/-- R84, R110: the search writes neither the packet buffer nor LEN. -/
theorem searched_keeps (s : State) : s.searched.buf = s.buf ∧ s.searched.fr.len = s.fr.len := by
  have hclassify : (classifyTick s).buf = s.buf ∧ (classifyTick s).fr.len = s.fr.len := by
    rcases classifyTick_cases s with ⟨-, e⟩ | ⟨-, -, e⟩ | ⟨-, -, -, e⟩ | ⟨-, -, -, e⟩ <;> rw [e]
    case inr.inr.inr => exact detPhase_keeps _ _
    all_goals exact ⟨rfl, rfl⟩
  exact hclassify

theorem State.SeekOk.lockedOk_searched {s : State} (h : s.SeekOk) (hlegal : s.params.Legal) (hf : s.fsm = .seek)
    (hl : s.searched.fsm = .locked) : s.searched.LockedOk := by
  obtain ⟨hends, hvalid, hhigh, hexpect, htest⟩ := classifyTick_locked hf hl
  have hlock : s.searched = _ := congrArg
    (fun t : State => t.withDet { t.det with wcnt := BitVec.ofNat 32 s.searchTicks })
    (classifyTick_lock hends hvalid hhigh hexpect htest)
  have htrain := h.belowTrain
  have hcount := satSucc_below_train hlegal htrain
  have hruns : s.det.lrun.toNat = s.det.hrun.toNat := congrArg BitVec.toNat (h.inStep hexpect)
  obtain ⟨hmin, -⟩ := htest
  have harmed : s.searched.JustLocked := ⟨hl, by rw [hlock]; simp [h.nothingRead, FrameReader.cleared]⟩
  have hhruns : (satSucc s.det.hrun).toNat = s.params.minTrain := by omega
  refine harmed.lockedOk ?_ ?_ ((searched_res s).trans h.noResult) <;> rw [hlock]
  · exact hlegal
  · exact ⟨hhruns, (congrArg (· + 1) hruns).trans (hcount.symm.trans hhruns), rfl⟩

theorem State.Inv.seekTick {s u : State} (hi : s.Inv) (hf : s.fsm = .seek) (h : tickStep s = .next u) : u.Inv := by
  have hok := hi.seekOk hf
  obtain ⟨hbuf, -⟩ := searched_keeps s
  have hblock : s.searched.BlockOk := hi.blockOk.congr (searchFrame_classifyTick s).params hbuf
  rcases tickStep_search_cases hf with ⟨hend, e⟩ | ⟨-, hfr, -, e⟩ <;> rw [e] at h <;> cases h
  · rcases searched_seek_or_locked hf with hseek | hlock
    · have hgo : s.searched.fsm ≠ .locked := by simp [hseek]
      exact hblock.inv_of_seek hseek (hok.searched hi.legal hf hgo (hend.resolve_left hgo))
    · exact hblock.inv_of_locked hlock (hok.lockedOk_searched hi.legal hf hlock)
  · have hres : s.searched.res = ResultRegs.cleared := (searched_res s).trans hok.noResult
    have hread : s.searched.fr = FrameReader.cleared := hfr.trans hok.nothingRead
    refine (hblock.congr rfl rfl : (finish .timeout 0 s.searched).BlockOk).inv_of_idle rfl ⟨rfl, ⟨rfl, ?_, ?_, ?_⟩, ?_⟩
    · rw [finish_res, hres]; rfl
    · rw [finish_res, hres]; rfl
    · rw [finish_fr, hread]; rfl
    · rw [finish_fr, hread]; rfl

end Sys2Proof.Machine
end

section
/-! The invariant over a LOCKED tick (R90 to R95), over a request and over a whole step. -/

namespace Sys2Proof.Machine

/-! ## LOCKED -/

/-- A LOCKED tick that completes no byte keeps what holds while LOCKED, as long as the bit timer runs. -/
theorem State.LockedOk.withTimer {s : State} (h : s.LockedOk) {tmr : BitVec 17} (shreg : Byte) (bitcnt : BitVec 3)
    (htmr : 1 ≤ tmr.toNat ∧ tmr.toNat ≤ s.params.offsetTicks + s.params.bitTicks) :
    (s.withFr { s.fr with tmr := tmr, shreg := shreg, bitcnt := bitcnt }).LockedOk :=
  ⟨h.runs, htmr, h.stored, h.crcOfBytes, h.syncHeld, h.noLength, h.lengthHeld, h.noResult⟩

/-- R90: the timer loaded after a sample is one that the invariant allows. -/
theorem bitWait_bounds {p : Params} (h : p.Legal) :
    1 ≤ (BitVec.ofNat 17 p.bitTicks).toNat ∧ (BitVec.ofNat 17 p.bitTicks).toNat ≤ p.offsetTicks + p.bitTicks := by
  rw [bitWait_toNat h]
  obtain ⟨hbit, -⟩ := h
  omega

/-- The frame reader's state after a byte, with LEN as the byte's gate leaves it. -/
def State.byteStoredLen (s : State) (len : Byte) : State := s.byteStored.withFr { s.byteStored.fr with len := len }

/-- R105: the running CRC stays in step when a byte is stored, also where the byte is the length byte: no length was known
before it, and it is not of the trailer either way. -/
theorem State.CrcHeld.byteStoredLen {s : State} (h : s.CrcHeld) {len : Byte}
    (hidx : (s.fr.idx + 1).toNat = s.fr.idx.toNat + 1) (hlen : len = s.fr.len ∨ (s.fr.idx.toNat = 2 ∧ s.fr.len = 0)) :
    (s.byteStoredLen len).CrcHeld := by
  have hcrc := inlineCrc_byteStored h
  have hsame : min (s.fr.idx.toNat + 1) (s.fr.len.toNat + 3) = min (s.fr.idx.toNat + 1) (len.toNat + 3) := by
    rcases hlen with rfl | ⟨h2, -⟩
    · rfl
    · omega
  rw [hsame, ← hidx] at hcrc
  exact hcrc

/-- R92: a byte whose gate lets the attempt go on keeps what holds while LOCKED. -/
theorem State.LockedOk.byteStoredLen {s : State} (h : s.LockedOk) (hlegal : s.params.Legal) (hdue : s.ByteDue) {len : Byte}
    (hlen : len = s.fr.len ∨ (s.fr.idx.toNat = 2 ∧ s.fr.len = 0))
    (hsync : 1 ≤ s.fr.idx.toNat → bufRead s.byteStored 0 ++ bufRead s.byteStored 1 = s.syncWord)
    (hshort : s.fr.idx.toNat ≤ 1 → len = 0)
    (hlong : 2 ≤ s.fr.idx.toNat →
      len = bufRead s.byteStored 2 ∧ len.toNat ≤ s.params.maxDataLen ∧ s.fr.idx.toNat + 1 < len.toNat + 5) :
    (s.byteStoredLen len).LockedOk := by
  have hcrc : s.CrcHeld := h.crcOfBytes
  have hidx : (s.byteStoredLen len).fr.idx.toNat = s.fr.idx.toNat + 1 := hdue.idx_succ hlegal
  refine ⟨h.runs, bitWait_bounds hlegal, ?_, hcrc.byteStoredLen hidx hlen, fun h2 => ?_, fun h2 => ?_, fun h3 => ?_,
    h.noResult⟩
  · rw [hidx]
    exact Memory.stored_set s.sampled h.stored
  · exact hsync (by omega)
  · exact hshort (by omega)
  · rw [hidx] at h3 ⊢
    exact hlong (by omega)

theorem State.BlockOk.byteStored {s : State} (h : s.BlockOk) (hdue : s.ByteDue) : s.byteStored.BlockOk := by
  obtain ⟨-, -, -, hroom⟩ := hdue
  exact ⟨h.legal, Memory.wf_set _ _ _ h.bufWf, Memory.below_set _ h.bufBelow hroom⟩

/-- What the last byte of a frame leaves (R95, R106): the CRC of the bytes before the trailer, and the trailer. -/
theorem State.LockedOk.frameHeld {s : State} (h : s.LockedOk) (hlegal : s.params.Legal) (hdue : s.ByteDue)
    (h3 : 3 ≤ s.fr.idx.toNat) (hidx : s.fr.idx.toNat = s.fr.len.toNat + 4) :
    (frameEnd s s.sampled s.byteStored).FrameHeld := by
  obtain ⟨hlen, hbound, -⟩ := h.lengthHeld h3
  have hnext : (s.fr.idx + 1).toNat = s.fr.len.toNat + 5 := by rw [hdue.idx_succ hlegal, hidx]
  have hread : ∀ j, j < s.fr.idx.toNat → bufRead (frameEnd s s.sampled s.byteStored) j = bufRead s j :=
    fun j hj => bufRead_byteStored_below hj
  refine ⟨frameCount_toNat _, hnext, hbound, ?_, ?_, ?_, ?_⟩
  · exact hlen.trans (hread 2 (by omega)).symm
  · have hstored := Memory.stored_set s.sampled h.stored
    rwa [show s.fr.idx.toNat + 1 = s.fr.len.toNat + 5 by omega] at hstored
  · have hcrc : s.fr.crc = crcFold 0 (s.frameBytes (s.fr.len.toNat + 3)) := by
      rw [h.crcOfBytes, hidx, Nat.min_eq_right (by omega)]
    have hframe := frameBytes_congr (n := s.fr.len.toNat + 3) fun j hj => (hread j (by omega)).symm
    exact (congrArg crcFinal (hcrc.trans (congrArg (crcFold 0) hframe)) :)
  · have hlast : bufRead (frameEnd s s.sampled s.byteStored) (s.fr.len.toNat + 4) = s.sampled :=
      hidx ▸ bufRead_byteStored_idx s
    change bufRead s _ ++ s.sampled = bufRead _ (s.fr.len.toNat + 3) ++ bufRead _ (s.fr.len.toNat + 4)
    rw [hread _ (by omega), hlast]

/-- R92: a byte that brings no gate. -/
theorem State.LockedOk.noGate {s : State} (h : s.LockedOk) (hlegal : s.params.Legal) (hdue : s.ByteDue)
    (hidx : s.fr.idx.toNat = 0 ∨ (3 ≤ s.fr.idx.toNat ∧ s.fr.idx.toNat ≠ s.fr.len.toNat + 4)) :
    s.byteStored.LockedOk := by
  refine h.byteStoredLen hlegal hdue (.inl rfl) (fun h1 => ?_) (fun h1 => ?_) fun h2 => ?_
  · rw [bufRead_byteStored_below (by omega), bufRead_byteStored_below (by omega)]
    exact h.syncHeld (by omega)
  · exact h.noLength (by omega)
  · obtain ⟨hlen, hbound, hlt⟩ := h.lengthHeld (by omega)
    rw [bufRead_byteStored_below (by omega)]
    exact ⟨hlen, hbound, by omega⟩

/-- R93: the sync gate, passed. -/
theorem State.LockedOk.syncPassed {s : State} (h : s.LockedOk) (hlegal : s.params.Legal) (hdue : s.ByteDue)
    (hidx : s.fr.idx.toNat = 1) (hword : bufRead s 0 ++ s.sampled = s.syncWord) : s.byteStored.LockedOk := by
  refine h.byteStoredLen hlegal hdue (.inl rfl) (fun _ => ?_) (fun _ => ?_) fun h2 => ?_
  · have hbyte := bufRead_byteStored_idx s
    rw [hidx] at hbyte
    rw [bufRead_byteStored_below (by omega), hbyte, hword]
  · exact h.noLength (by omega)
  · omega

/-- R94: the length gate, passed. -/
theorem State.LockedOk.lengthPassed {s : State} (h : s.LockedOk) (hlegal : s.params.Legal) (hdue : s.ByteDue)
    (hidx : s.fr.idx.toNat = 2) (hlen : s.sampled.toNat ≤ s.params.maxDataLen) : (s.byteStoredLen s.sampled).LockedOk := by
  have hbyte := bufRead_byteStored_idx s
  rw [hidx] at hbyte
  refine h.byteStoredLen hlegal hdue (.inr ⟨hidx, h.noLength (by omega)⟩) (fun _ => ?_) (fun h1 => ?_)
    fun _ => ⟨hbyte.symm, hlen, by omega⟩
  · rw [bufRead_byteStored_below (by omega), bufRead_byteStored_below (by omega)]
    exact h.syncHeld (by omega)
  · omega

/-- R146: an attempt that a gate ends records no frame. -/
theorem State.LockedOk.aborted {s : State} (h : s.LockedOk) (hlegal : s.params.Legal) (hdue : s.ByteDue)
    (code : ResultCode) (len : Byte) : (finish code 0 (s.byteStoredLen len)).Aborted (s.fr.idx.toNat + 1) := by
  have hres : (s.byteStoredLen len).res = ResultRegs.cleared := h.noResult
  refine ⟨rfl, ?_, ?_, hdue.idx_succ hlegal⟩ <;> rw [finish_res, hres] <;> rfl

theorem State.Inv.byteGate {s : State} (hi : s.Inv) (hdue : s.ByteDue) :
    (byteGate s s.fr.idx.toNat s.sampled s.byteStored).Inv := by
  have hf : s.fsm = .locked := hdue.left
  have hok := hi.lockedOk hf
  have hlegal := hi.legal
  have hblock : (Machine.byteGate s s.fr.idx.toNat s.sampled s.byteStored).BlockOk :=
    (hi.blockOk.byteStored hdue).congr (tickFrame_byteGate _ _ _ _).params (byteGate_buf _ _ _ _)
  have hbyte := bufRead_byteStored_idx s
  rcases byteGate_cases s s.fr.idx.toNat s.sampled s.byteStored with ⟨hidx, -⟩ | ⟨hidx, -⟩ | ⟨h3, hidx, e⟩ | ⟨h1, h2, h3, e⟩
  · have haborted := hok.aborted hlegal hdue .syncMismatch s.fr.len
    rw [hidx] at hblock haborted ⊢
    rw [byteGate_sync] at hblock ⊢
    split_ifs at hblock ⊢ with hword
    · exact hblock.inv_of_locked hf (hok.syncPassed hlegal hdue hidx ((append_eq_iff_toNat _ _ _).2 hword))
    · exact hblock.inv_of_idle rfl ⟨rfl, haborted, hok.noLength (by omega)⟩
  · have haborted := hok.aborted hlegal hdue .lengthOverflow s.sampled
    rw [hidx] at hblock haborted hbyte ⊢
    rw [byteGate_len] at hblock ⊢
    split_ifs at hblock ⊢ with hlen
    · exact hblock.inv_of_locked hf (hok.lengthPassed hlegal hdue hidx hlen)
    · exact hblock.inv_of_idle rfl ⟨rfl, haborted, hbyte.symm, Nat.lt_of_not_le hlen⟩
  · have hframe := hok.frameHeld hlegal hdue h3 hidx
    rw [e] at hblock ⊢
    refine hblock.inv_of_idle rfl ?_
    by_cases hagree : (frameEnd s s.sampled s.byteStored).res.crcCalc = (frameEnd s s.sampled s.byteStored).res.crcRx
    · have hresult : (frameEnd s s.sampled s.byteStored).res.result = .ok := if_pos hagree
      rw [State.IdleOk, hresult]
      exact ⟨rfl, hframe, hagree⟩
    · have hresult : (frameEnd s s.sampled s.byteStored).res.result = .crcMismatch := if_neg hagree
      rw [State.IdleOk, hresult]
      exact ⟨rfl, hframe, hagree⟩
  · rw [e] at hblock ⊢
    exact hblock.inv_of_locked hf (hok.noGate hlegal hdue (by omega))

theorem State.Inv.lockedTick {s u : State} (hi : s.Inv) (hf : s.fsm = .locked) (h : s.LockedTick u) : u.Inv := by
  have hok := hi.lockedOk hf
  have hblock (fr : FrameReader) : (s.withFr fr).BlockOk := hi.blockOk.congr rfl rfl
  cases h with
  | wait htmr =>
    obtain ⟨hlow, hhigh⟩ := hok.timer
    refine (hblock _).inv_of_locked hf (hok.withTimer s.fr.shreg s.fr.bitcnt ?_)
    have hcount : (s.fr.tmr - 1).toNat = s.fr.tmr.toNat - 1 := by bv_omega
    have hne : s.fr.tmr.toNat ≠ 1 := fun h1 => htmr (BitVec.eq_of_toNat_eq h1)
    omega
  | sample htmr hbit =>
    exact (hblock _).inv_of_locked hf (hok.withTimer _ _ (bitWait_bounds hi.legal))
  | byte hdue => exact hi.byteGate hdue

/-! ## The whole step -/

/-- Every tick step keeps the invariant. -/
theorem State.Inv.after_tickStep {s u : State} (hi : s.Inv) (h : tickStep s = .next u) : u.Inv := by
  cases hf : s.fsm with
  | idle =>
    rw [tickStep_idle hf] at h
    cases h
    exact hi
  | seek => exact hi.seekTick hf h
  | locked => exact hi.lockedTick hf (lockedTick_of_tickStep hf h)

theorem State.FrameHeld.congr {s t : State} (h : s.FrameHeld) (hp : t.params = s.params) (hfr : t.fr = s.fr)
    (hres : t.res = s.res) (hbuf : t.buf = s.buf) : t.FrameHeld := by
  have hread : bufRead t = bufRead s := funext fun i => bufRead_congr hbuf i
  have hbytes : t.frameBytes = s.frameBytes := funext fun n => frameBytes_congr fun i _ => congrFun hread i
  obtain ⟨hcount, hidx, hbound, hlen, hstored, hcalc, hrx⟩ := h
  constructor <;> simp only [hp, hfr, hres, hbuf, hread, hbytes] <;> assumption

theorem State.Aborted.congr {s t : State} {n : Nat} (h : s.Aborted n) (hfr : t.fr = s.fr) (hres : t.res = s.res) :
    t.Aborted n :=
  ⟨hres ▸ h.count, hres ▸ h.computed, hres ▸ h.received, hfr ▸ h.idx⟩

/-- What a result records is of the parameters, the frame reader, the results and the buffer. -/
theorem State.IdleOk.congr {s t : State} (h : s.IdleOk) (hp : t.params = s.params) (hfr : t.fr = s.fr)
    (hres : t.res = s.res) (hbuf : t.buf = s.buf) : t.IdleOk := by
  unfold State.IdleOk at h ⊢
  rw [hres, hfr, hp, bufRead_congr hbuf]
  split at h
  · exact h
  iterate 2 exact h.imp_right (And.imp_left fun hheld => hheld.congr hp hfr hres hbuf)
  all_goals exact h.imp_right (And.imp_left fun haborted => haborted.congr hfr hres)

/-- The invariant does not speak of POL, AUX, the ports and the tick count, and of SYNC_WORD only while LOCKED. -/
theorem State.Inv.withPorts {s : State} (hi : s.Inv) {w : Word} (p : Level) (a r : Word) (q : List Pins) (n : Nat)
    (hw : s.fsm = .locked → w = s.syncWord) :
    State.Inv { s with syncWord := w, pol := p, aux := a, rdata := r, inputs := q, tick := n } where
  legal := hi.legal
  bufWf := hi.bufWf
  bufBelow := hi.bufBelow
  idleOk hf := (hi.idleOk hf).congr rfl rfl rfl rfl
  seekOk hf :=
    let h := hi.seekOk hf
    ⟨h.inStep, h.oneAhead, h.belowTrain, h.belowLimit, h.firstSample, h.phaseBegun, h.nothingRead, h.noResult⟩
  lockedOk hf :=
    let h := hi.lockedOk hf
    ⟨h.runs, h.timer, h.stored, h.crcOfBytes, fun h2 => (h.syncHeld h2).trans (hw hf).symm, h.noLength, h.lengthHeld,
      h.noResult⟩

/-- R114: a fresh search. -/
theorem State.BlockOk.beginAttempt {s : State} (h : s.BlockOk) : (beginAttempt s).Inv := by
  have hmin : 0 < s.params.minTrain := by
    obtain ⟨-, -, hmin, -⟩ := h.legal
    exact hmin
  exact (h.congr rfl rfl : (Machine.beginAttempt s).BlockOk).inv_of_seek rfl
    { inStep := fun _ => rfl
      oneAhead := fun he => nomatch he
      belowTrain := hmin
      belowLimit := Nat.pos_of_ne_zero
      firstSample := fun _ => rfl
      phaseBegun := fun hl => nomatch hl
      nothingRead := rfl
      noResult := rfl }

theorem State.Inv.hostEffect {s u w : State} (hu : tickStep s = .next u) (hi : u.Inv) (h : HostEffect s u w) : w.Inv := by
  have hidle : s.fsm = .idle → u.fsm ≠ .locked := fun hf => by
    rw [tickStep_idle hf] at hu
    cases hu
    simp [hf]
  cases h with
  | nothing => exact hi
  | start hf => exact hi.blockOk.beginAttempt
  | syncWord hf d => exact hi.withPorts u.pol u.aux u.rdata u.inputs u.tick fun hl => absurd hl (hidle hf)
  | pol hf p => exact hi.withPorts p u.aux u.rdata u.inputs u.tick fun _ => rfl
  | aux a => exact hi.withPorts u.pol a u.rdata u.inputs u.tick fun _ => rfl

/-- R160: a reset tick, whatever it finds in the other fields. -/
theorem State.BlockOk.resetState {s : State} (h : s.BlockOk) : (resetState s).Inv :=
  (h.congr rfl rfl : (Machine.resetState s).BlockOk).inv_of_idle rfl (idleOk_of_cleared rfl)

/-- Settles O51: reset and START leave a fresh block, every other request leaves what the tick step does as far as the invariant
speaks of it, and each unit's tick keeps it. -/
theorem stepKeepsInvariant : Obligations.StepKeepsInvariant := by
  intro s t hi h
  rcases step_cases h with ⟨-, rfl⟩ | ⟨-, u, w, r, hu, heffect, rfl⟩
  · exact hi.blockOk.resetState.withPorts _ _ _ _ _ fun _ => rfl
  · exact ((hi.after_tickStep hu).hostEffect hu heffect).withPorts _ _ _ _ _ fun _ => rfl

/-- R32: while LOCKED, IDX is below CAP. -/
theorem State.Inv.bufRoom {s : State} (hi : s.Inv) : s.BufRoom := by
  intro hf
  have hcap : s.params.cap = s.params.maxDataLen + 5 := rfl
  by_cases h3 : 3 ≤ s.fr.idx.toNat
  · obtain ⟨-, hbound, hlt⟩ := (hi.lockedOk hf).lengthHeld h3
    omega
  · omega

/-- Settles O52: the invariant leaves room in the buffer, and only a full buffer stops the tick step. -/
theorem stepNeverStops : Obligations.StepNeverStops := by
  intro s hi
  obtain ⟨u, hu⟩ := tickStep_goes_on hi.bufRoom
  exact step_goes_on hu

theorem inv_reset_of_legal {p : Params} (h : p.Legal) : State.Inv { State.reset with params := p } :=
  (⟨h, Memory.wf_nil, Memory.below_nil _⟩ : State.BlockOk { State.reset with params := p }).inv_of_idle rfl
    (idleOk_of_cleared rfl)

/-- R9: the defaults are legal, whatever MAX_DATA_LEN is (log 3). -/
theorem config_legal : Config.params.Legal := by
  have := Config.maxDataLen.isLt
  refine ⟨by decide, by decide, by decide, by decide, ?_, by decide, by decide, by decide⟩
  change Config.maxDataLen.toNat ≤ 255
  omega

/-- Settles O50: nothing is recorded and nothing is listed in the buffer, and the defaults are a legal elaboration. -/
theorem resetStateSatisfiesInvariant : Obligations.ResetStateSatisfiesInvariant :=
  ⟨inv_reset_of_legal config_legal, fun _ => inv_reset_of_legal⟩

end Sys2Proof.Machine
end

section
/-! What a tick step leaves alone in each state of the sequencer: the packet buffer but for the byte a LOCKED tick stores, the
units that do not run, and the results while the attempt goes on (R110). -/

namespace Sys2Proof.Machine

theorem bufRead_tickStep_seek {s u : State} (hf : s.fsm = .seek) (h : tickStep s = .next u) (i : Nat) :
    bufRead u i = bufRead s i := by
  obtain ⟨hbuf, -⟩ := searched_keeps s
  rcases tickStep_search_cases hf with ⟨-, e⟩ | ⟨-, -, -, e⟩ <;> rw [e] at h <;> cases h
  all_goals exact bufRead_congr hbuf i

/-- Settles O37: the classifier and the detector write the frame reader only by LOCK, which keeps LEN, and TIMEOUT writes the
result registers alone. -/
theorem seekTickFrame : Obligations.SeekTickFrame := by
  intro s t hf h
  obtain ⟨hparams, hsync, hpol, haux, hrdata, hinputs, htick⟩ := tickFrame_tickStep h
  obtain ⟨-, hlen⟩ := searched_keeps s
  refine ⟨hparams, hsync, hpol, haux, bufRead_tickStep_seek hf h, hrdata, hinputs, htick, ?_⟩
  rcases tickStep_search_cases hf with ⟨-, e⟩ | ⟨-, hfr, -, e⟩ <;> rw [e] at h <;> cases h
  · refine ⟨hlen, fun hnot => ?_, fun _ => searched_res s⟩
    rcases (searchFrame_classifyTick s).fsm with hl | ⟨-, hfr⟩
    · exact absurd hl hnot
    · exact hfr
  · exact ⟨hlen, fun _ => hfr, fun hbusy => absurd rfl hbusy⟩

/-- R110: no gate touches the classifier or the detector, and one that writes a result ends the attempt. -/
theorem byteGate_frame (s : State) (i : Nat) (v : Byte) (t : State) :
    (byteGate s i v t).cls = t.cls ∧ (byteGate s i v t).det = t.det ∧
      ((byteGate s i v t).fsm ≠ .idle → (byteGate s i v t).res = t.res) := by
  rcases byteGate_cases s i v t with ⟨rfl, -⟩ | ⟨rfl, -⟩ | ⟨-, -, e⟩ | ⟨-, -, -, e⟩
  · rw [byteGate_sync]
    split
    · exact ⟨rfl, rfl, fun _ => rfl⟩
    · exact ⟨rfl, rfl, fun hbusy => absurd rfl hbusy⟩
  · rw [byteGate_len]
    split
    · exact ⟨rfl, rfl, fun _ => rfl⟩
    · exact ⟨rfl, rfl, fun hbusy => absurd rfl hbusy⟩
  · rw [e]
    exact ⟨rfl, rfl, fun hbusy => absurd rfl hbusy⟩
  · rw [e]
    exact ⟨rfl, rfl, fun _ => rfl⟩

theorem State.LockedTick.frame {s u : State} (h : s.LockedTick u) :
    u.cls = s.cls ∧ u.det = s.det ∧ (u.fsm ≠ .idle → u.res = s.res) := by
  cases h with
  | wait _ | sample _ _ => exact ⟨rfl, rfl, fun _ => rfl⟩
  | byte _ => exact byteGate_frame s _ _ s.byteStored

/-- R92: the byte stored is byte IDX, at the eighth bit. -/
theorem State.LockedTick.bufRead {s u : State} (h : s.LockedTick u) {i : Nat}
    (hi : i ≠ s.fr.idx.toNat ∨ s.fr.tmr ≠ 1 ∨ s.fr.bitcnt ≠ 7) : bufRead u i = bufRead s i := by
  cases h with
  | wait _ | sample _ _ => rfl
  | byte hdue =>
    obtain ⟨-, htmr, hbit, -⟩ := hdue
    have hother : i ≠ s.fr.idx.toNat := hi.resolve_right (not_or.2 ⟨not_not_intro htmr, not_not_intro hbit⟩)
    rw [bufRead_byteGate, if_neg hother]

/-- Settles O45: each way a LOCKED tick can go stays within the frame. -/
theorem lockedTickFrame : Obligations.LockedTickFrame := by
  intro s t hf h
  obtain ⟨hparams, hsync, hpol, haux, hrdata, hinputs, htick⟩ := tickFrame_tickStep h
  have htick' := lockedTick_of_tickStep hf h
  obtain ⟨hcls, hdet, hres⟩ := htick'.frame
  exact ⟨hparams, hsync, hpol, hcls, hdet, haux, hrdata, hinputs, htick, fun _ => htick'.bufRead, hres⟩

/-- R25: in every state, the tick step writes the buffer at most where a LOCKED tick stores a byte. -/
theorem bufRead_tickStep {s u : State} (h : tickStep s = .next u) {i : Nat}
    (hi : s.fsm ≠ .locked ∨ i ≠ s.fr.idx.toNat ∨ s.fr.tmr ≠ 1 ∨ s.fr.bitcnt ≠ 7) : bufRead u i = bufRead s i := by
  cases hf : s.fsm with
  | idle =>
    rw [tickStep_idle hf] at h
    cases h
    rfl
  | seek => exact bufRead_tickStep_seek hf h i
  | locked => exact (lockedTick_of_tickStep hf h).bufRead (hi.resolve_left (not_not_intro hf))

/-- Settles O23: the tick step is the identity, and the tick drives 0x0000. -/
theorem idleTickKeepsEveryField : Obligations.IdleTickKeepsEveryField :=
  fun _ hidle => ⟨tickStep_idle hidle, quietTick_of_tick (tickStep_idle hidle)⟩

end Sys2Proof.Machine
end

section
/-! A request's tick in one form (R41, R60): the tick step, then the request's effect, then a word on `rdata`. -/

namespace Sys2Proof.Machine

/-- What the request `i` of the tick that begins in `s` does to the state its tick step leaves. -/
def requestEffect (i : Instr) (s t : State) : State :=
  match i with
  | .wrCtrl d => if d.getLsbD 0 = true ∧ s.fsm = .idle then beginAttempt t else t
  | .wrSyncWord d => if s.fsm = .idle then t.withSyncWord d else t
  | .wrConfig d => if s.fsm = .idle then t.withPol (d.getLsbD 0) else t
  | .wrCrcAuxClr d => if d.getLsbD 0 = true then t.withAux 0x0000 else t
  | .wrCrcAuxData d => t.withAux (crcUpdate s.aux (auxByte d))
  | _ => t

/-- R16, R41: every operation has this form, and a write drives 0x0000. -/
theorem exec_eq_requestEffect (i : Instr) (s : State) :
    ∃ r, (i.isWrite = true → r = 0x0000) ∧
      exec i s = onNext (tickStep s) fun t => (requestEffect i s t).withRdata r := by
  cases i with
  | rdCtrl | rdStatus | rdCount | rdCrcCalc | rdCrcRx | rdSyncWord | rdConfig | rdIdx | rdLen | rdParam | rdCrcAuxClr
  | rdCrcAuxData | rdCrcAuxResult | rdBitTicks | rdBuf _ | rdUnmapped _ =>
    refine ⟨_, fun h => ?_, rfl⟩
    cases h
  | _ => exact ⟨0x0000, fun _ => rfl, rfl⟩

theorem exec_next_requestEffect {i : Instr} {s u t : State} (hu : tickStep s = .next u) (h : exec i s = .next t) :
    ∃ r, (i.isWrite = true → r = 0x0000) ∧ t = (requestEffect i s u).withRdata r := by
  obtain ⟨r, hr, e⟩ := exec_eq_requestEffect i s
  rw [e, hu] at h
  cases h
  exact ⟨r, hr, rfl⟩

/-- R37: a read has no effect. -/
theorem requestEffect_read {i : Instr} (h : i.isWrite = false) (s t : State) : requestEffect i s t = t := by
  cases i with
  | wrCtrl _ | wrSyncWord _ | wrConfig _ | wrCrcAuxClr _ | wrCrcAuxData _ => cases h
  | _ => rfl

/-- R60, R142: no effect reaches the parameters, the ports' bookkeeping or the buffer. -/
theorem requestEffect_frame (i : Instr) (s t : State) :
    (requestEffect i s t).params = t.params ∧ (requestEffect i s t).inputs = t.inputs ∧
      (requestEffect i s t).tick = t.tick ∧ (requestEffect i s t).buf = t.buf := by
  cases i with
  | wrCtrl _ | wrSyncWord _ | wrConfig _ | wrCrcAuxClr _ =>
    dsimp only [requestEffect]
    split <;> exact ⟨rfl, rfl, rfl, rfl⟩
  | _ => exact ⟨rfl, rfl, rfl, rfl⟩

theorem requestEffect_syncWord {i : Instr} {s : State} (h : s.fsm ≠ .idle ∨ ∀ d, i ≠ .wrSyncWord d) (t : State) :
    (requestEffect i s t).syncWord = t.syncWord := by
  cases i with
  | wrSyncWord d =>
    have hbusy : s.fsm ≠ .idle := h.resolve_right fun hne => hne d rfl
    rw [requestEffect, if_neg hbusy]
  | wrCtrl _ | wrConfig _ | wrCrcAuxClr _ =>
    dsimp only [requestEffect]
    split <;> rfl
  | _ => rfl

theorem requestEffect_pol {i : Instr} {s : State} (h : s.fsm ≠ .idle ∨ ∀ d, i ≠ .wrConfig d) (t : State) :
    (requestEffect i s t).pol = t.pol := by
  cases i with
  | wrConfig d =>
    have hbusy : s.fsm ≠ .idle := h.resolve_right fun hne => hne d rfl
    rw [requestEffect, if_neg hbusy]
  | wrCtrl _ | wrSyncWord _ | wrCrcAuxClr _ =>
    dsimp only [requestEffect]
    split <;> rfl
  | _ => rfl

theorem requestEffect_aux {i : Instr} (hclr : ∀ d, i ≠ .wrCrcAuxClr d) (hdata : ∀ d, i ≠ .wrCrcAuxData d) (s t : State) :
    (requestEffect i s t).aux = t.aux := by
  cases i with
  | wrCrcAuxClr d => exact absurd rfl (hclr d)
  | wrCrcAuxData d => exact absurd rfl (hdata d)
  | wrCtrl _ | wrSyncWord _ | wrConfig _ =>
    dsimp only [requestEffect]
    split <;> rfl
  | _ => rfl

/-- Settles O16: a read's tick and a tick without a request differ in `rdata` alone. -/
theorem readsHaveNoSideEffect : Obligations.ReadsHaveNoSideEffect := by
  intro i s t hread h
  obtain ⟨u, -, -, hu, -⟩ := exec_effect h
  obtain ⟨r, -, rfl⟩ := exec_next_requestEffect hu h
  rw [requestEffect_read hread, quietTick_of_tick hu]
  rfl

/-- Settles O22: the effect of each request on each field, and the tick step's on the buffer. -/
theorem requestChangesOnlyItsTarget : Obligations.RequestChangesOnlyItsTarget := by
  intro i s u t hu h
  have hattempt := exec_sameAttempt hu h
  obtain ⟨r, hr, rfl⟩ := exec_next_requestEffect hu h
  obtain ⟨hparams, hinputs, htick, hbuf⟩ := requestEffect_frame i s u
  have hread (a : Nat) : bufRead ((requestEffect i s u).withRdata r) a = bufRead u a := bufRead_congr hbuf a
  refine ⟨hparams, hinputs, htick, hread, fun a ha => ?_, fun hstart => ?_, fun hs => requestEffect_syncWord hs u,
    fun hp => requestEffect_pol hp u, fun hclr hdata => requestEffect_aux hclr hdata s u, hr⟩
  · rw [hread, bufRead_tickStep hu ha]
  · obtain ⟨hfsm, hcls, hdet, hfr, hres⟩ := hattempt fun d hd ⟨hbit, hidle⟩ => by
      rcases hstart d hd with hclear | hbusy
      · exact Bool.false_ne_true (hclear.symm.trans hbit)
      · exact hbusy hidle
    exact ⟨hfsm, hcls, hdet, hfr, hres⟩

/-- R61: of the data written to CRC_AUX_DATA only the low byte counts. -/
theorem auxByte_congr {d e : Word} (h : ∀ k, k < 8 → d.getLsbD k = e.getLsbD k) : auxByte d = auxByte e := by
  refine BitVec.eq_of_getLsbD_eq fun k hk => ?_
  rw [auxByte, auxByte, BitVec.getLsbD_setWidth, BitVec.getLsbD_setWidth, h k hk]

/-- Settles O5: each of these meanings reads no other bit of the write data. -/
theorem ignoredWriteDataHasNoEffect : Obligations.IgnoredWriteDataHasNoEffect := by
  refine fun s d e => ⟨fun hbit => ⟨?_, ?_, ?_⟩, fun hlow => ?_⟩
  · rw [exec_wrCtrl, exec_wrCtrl, hbit]
  · rw [exec_wrConfig, exec_wrConfig, hbit]
  · rw [exec_wrCrcAuxClr, exec_wrCrcAuxClr, hbit]
  · rw [exec_wrCrcAuxData, exec_wrCrcAuxData, auxByte_congr hlow]

end Sys2Proof.Machine
end

section
/-! What the requests leave alone, over a whole step: the results of a finished attempt, the configuration of a running one, and
the packet buffer. -/

namespace Sys2Proof.Machine

/-- The pins that `withFetchWord` presents (log 2). -/
theorem pins_withFetchWord (s : State) (q : ReqWord) :
    (s.withFetchWord 32 q.toNat).pins = { rst := false, rx := s.rx, reqValid := true, req := q } := by
  have hword : BitVec.ofNat 32 (q.toNat % 2 ^ 32) = q := by
    rw [Nat.mod_eq_of_lt q.isLt, BitVec.ofNat_toNat, BitVec.setWidth_eq]
  rw [State.withFetchWord, hword]
  rfl

/-- Settles O6: the three cases of a step, and the pins of a placed word. -/
theorem stepRunsDecodedRequest : Obligations.StepRunsDecodedRequest := by
  refine ⟨fun s i hrst hreq hi _ => ?_, fun s => step_of_quiet, fun s q => ?_, fun s => step_of_reset, fun s => rfl⟩
  · rw [step_of_request hrst hreq, hi]
  · have hpins := pins_withFetchWord s q
    rw [step_of_request (by rw [hpins]) (by rw [hpins]), hpins]

/-- Settles O47: while IDLE the tick step is the identity, and no request but START writes an attempt field. -/
theorem resultStaysUntilStartOrReset : Obligations.ResultStaysUntilStartOrReset := by
  intro s hidle hrst hnot
  obtain ⟨t, ht⟩ := step_goes_on (tickStep_idle hidle)
  have hstart : ¬ s.StartAccepted := fun ⟨_, hs⟩ => hnot hs
  obtain ⟨u, hu, hsame⟩ := step_sameAttempt hrst hstart ht
  rw [tickStep_idle hidle] at hu
  cases hu
  refine ⟨t, ht, hsame.res, congrArg ResultRegs.done hsame.res, hsame.fsm.trans hidle, hsame.fr, fun i => ?_⟩
  rcases step_cases ht with ⟨hr, -⟩ | ⟨-, u, w, r, hu, heffect, rfl⟩
  · exact nomatch hrst.symm.trans hr
  · rw [tickStep_idle hidle] at hu
    cases hu
    cases heffect <;> rfl

theorem HostEffect.buf {s u w : State} (h : HostEffect s u w) : w.buf = u.buf := by cases h <;> rfl

theorem HostEffect.params {s u w : State} (h : HostEffect s u w) : w.params = u.params := by cases h <;> rfl

/-- Settles O49: a reset keeps the buffer, no effect of a request reaches it, and the tick step writes it only while LOCKED, at
IDX. -/
theorem onlyFrameReaderWritesBuffer : Obligations.OnlyFrameReaderWritesBuffer := by
  intro s t h
  rcases step_cases h with ⟨-, rfl⟩ | ⟨hrst, u, w, r, hu, heffect, rfl⟩
  · exact ⟨rfl, fun i hne => absurd rfl hne⟩
  · refine ⟨heffect.params.trans (tickFrame_tickStep hu).params, fun i hne => ?_⟩
    have hread : bufRead ((w.withRdata r).advance) i = bufRead u i := bufRead_congr heffect.buf i
    rw [hread] at hne
    refine ⟨hrst, ?_, ?_⟩
    · by_contra hf
      exact hne (bufRead_tickStep hu (.inl hf))
    · by_contra hi
      exact hne (bufRead_tickStep hu (.inr (.inl hi)))

/-- R166: while busy, what a request does to the state the tick step leaves: nothing, or set AUX. -/
theorem HostEffect.of_busy {s u w : State} (h : HostEffect s u w) (hbusy : s.fsm ≠ .idle) : ∃ a, w = u.withAux a := by
  cases h with
  | nothing => exact ⟨u.aux, rfl⟩
  | aux a => exact ⟨a, rfl⟩
  | start hidle | syncWord hidle _ | pol hidle _ => exact absurd hidle hbusy

theorem step_of_busy {s t : State} (hbusy : s.fsm ≠ .idle) (hrst : s.pins.rst = false) (h : step s = .next t) :
    ∃ u a r, tickStep s = .next u ∧ t = ((u.withAux a).withRdata r).advance := by
  rcases step_cases h with ⟨hr, -⟩ | ⟨-, u, w, r, hu, heffect, rfl⟩
  · exact nomatch hrst.symm.trans hr
  · obtain ⟨a, rfl⟩ := heffect.of_busy hbusy
    exact ⟨u, a, r, hu, rfl⟩

/-- R167: AUX changes in no other step but a reset and a write to the auxiliary port. -/
theorem step_aux {s t : State} (hrst : s.pins.rst = false) (h : step s = .next t) (hne : t.aux ≠ s.aux) :
    s.pins.reqValid = true ∧
      ((∃ d, decode s.pins.req = .wrCrcAuxClr d) ∨ ∃ d, decode s.pins.req = .wrCrcAuxData d) := by
  cases hreq : s.pins.reqValid with
  | false =>
    rw [step_of_quiet hrst hreq] at h
    obtain ⟨w, hw, rfl⟩ := onNext_eq_next.1 h
    obtain ⟨u, hu, rfl⟩ := onNext_eq_next.1 hw
    exact absurd (tickFrame_tickStep hu).aux hne
  | true =>
    rw [step_of_request hrst hreq] at h
    obtain ⟨w, hw, rfl⟩ := onNext_eq_next.1 h
    obtain ⟨u, -, -, hu, -⟩ := exec_effect hw
    obtain ⟨r, -, rfl⟩ := exec_next_requestEffect hu hw
    refine ⟨rfl, ?_⟩
    by_contra hnot
    obtain ⟨hclr, hdata⟩ := not_or.1 hnot
    refine hne ((requestEffect_aux (fun d hd => hclr ⟨d, hd⟩) (fun d hd => hdata ⟨d, hd⟩) s u).trans ?_)
    exact (tickFrame_tickStep hu).aux

/-- Settles O48: the tick step writes no configuration register, and a busy block takes from the host at most a new AUX. -/
theorem configurationIsConstantWhileBusy : Obligations.ConfigurationIsConstantWhileBusy := by
  intro s t hbusy hrst h
  have haux := step_aux hrst h
  obtain ⟨u, a, r, hu, rfl⟩ := step_of_busy hbusy hrst h
  have hframe := tickFrame_tickStep hu
  exact ⟨hframe.syncWord, hframe.pol, haux⟩

end Sys2Proof.Machine
end

section
/-! The block never depends on a buffer byte that the running attempt has not written (R161, R168): a step runs alike over
another buffer and another last `rdata`, as long as the bytes below IDX agree while LOCKED. -/

namespace Sys2Proof.Machine

/-- The state with another packet buffer and another last word on `rdata`. -/
def State.over (s : State) (b : Memory) (r : Word) : State := (s.withBuf b).withRdata r

/-- States that differ at most in stale bytes and in `rdata` are one state over two buffers. -/
theorem State.SameButStaleBytes.eq_over {s t : State} (h : s.SameButStaleBytes t) : t = s.over t.buf t.rdata :=
  (congrArg (fun x => State.over x t.buf t.rdata) h.rest).symm

theorem sameButStaleBytes_over {s : State} {b : Memory} {r : Word}
    (h : s.fsm = .locked → ∀ i, i < s.fr.idx.toNat → bufRead s i = bufRead (s.over b r) i) :
    s.SameButStaleBytes (s.over b r) :=
  ⟨rfl, h⟩

/-! ## The tick step -/

theorem detPhase_over (ph : Phase) (s : State) (b : Memory) (r : Word) :
    detPhase ph (s.over b r) = (detPhase ph s).over b r := by
  obtain ⟨l, d, c⟩ := ph
  cases c with
  | short => rfl
  | valid =>
    simp only [detPhase, apply_ite (State.over · b r)]
    rfl

theorem classifyTick_over (s : State) (b : Memory) (r : Word) : classifyTick (s.over b r) = (classifyTick s).over b r := by
  rcases classifyTick_cases s with ⟨hl, e⟩ | ⟨hl, hr, e⟩ | ⟨hl, hr, hp, e⟩ | ⟨hl, hr, hp, e⟩ <;> rw [e]
  · exact classifyTick_first hl
  · exact classifyTick_same hl hr
  · exact classifyTick_partial hl hr hp
  · rw [classifyTick_delivered (s := s.over b r) hl hr hp, ← detPhase_over]
    rfl

/-- The classifier, the detector and the limit read neither the buffer nor `rdata`. -/
theorem seekTick_over (s : State) (b : Memory) (r : Word) : seekTick (s.over b r) = (seekTick s).over b r := by
  simp only [seekTick, classifyTick_over, timeoutTick, apply_ite (State.over · b r)]
  rfl

/-- R84: a SEEK tick that locks begins a frame of which nothing is written. -/
theorem idx_of_seekTick_locked {s : State} (hf : s.fsm = .seek) (h : (seekTick s).fsm = .locked) :
    (seekTick s).fr.idx = 0 := by
  have hnext := tickStep_seek hf
  rcases tickStep_search_cases hf with ⟨-, e⟩ | ⟨-, -, -, e⟩ <;> rw [hnext] at e <;> injection e with e <;> rw [e] at h ⊢
  · obtain ⟨hends, hvalid, hhigh, hexpect, htest⟩ := classifyTick_locked hf h
    rw [State.searched, classifyTick_lock hends hvalid hhigh hexpect htest]
    rfl
  · cases h

/-- R93, R95: a gate reads only bytes below the one stored. -/
theorem byteGate_over {s : State} {i : Nat} {b : Memory} {r : Word}
    (h : ∀ j, j < i → bufRead s j = bufRead (s.over b r) j) (v : Byte) (t : State) (b' : Memory) :
    byteGate (s.over b r) i v (t.over b' r) = (byteGate s i v t).over b' r := by
  rcases byteGate_cases s i v t with ⟨rfl, -⟩ | ⟨rfl, -⟩ | ⟨h3, hi, e⟩ | ⟨h1, h2, h3, e⟩
  · rw [byteGate_sync, byteGate_sync, ← h 0 (by omega), apply_ite (State.over · b' r)]
    rfl
  · rw [byteGate_len, byteGate_len, apply_ite (State.over · b' r)]
    rfl
  · rw [e, byteGate_frameEnd (s := s.over b r) h3 hi, frameEnd, frameEnd]
    have hlow : bufRead (s.over b r) ((s.over b r).fr.len.toNat + 3) = bufRead s (s.fr.len.toNat + 3) :=
      (h (s.fr.len.toNat + 3) (by omega)).symm
    rw [hlow]
    rfl
  · rw [e, byteGate_none (s := s.over b r) (by change i = 0 ∨ (3 ≤ i ∧ i ≠ s.fr.len.toNat + 4); omega)]

/-- R94, R110: of the frame reader a gate writes LEN alone. -/
theorem byteGate_fr (s : State) (i : Nat) (v : Byte) (t : State) :
    (byteGate s i v t).fr = { t.fr with len := (byteGate s i v t).fr.len } := by
  rcases byteGate_cases s i v t with ⟨rfl, -⟩ | ⟨rfl, -⟩ | ⟨-, -, e⟩ | ⟨-, -, -, e⟩
  · rw [byteGate_sync]
    split <;> rfl
  · rw [byteGate_len]
    split <;> rfl
  · rw [e]
    rfl
  · rw [e]

theorem toNat_add_one_le {w : Nat} (v : BitVec w) : (v + 1).toNat ≤ v.toNat + 1 := by
  have hone : (1 : BitVec w).toNat ≤ 1 := Nat.mod_le _ _
  rw [BitVec.toNat_add]
  exact (Nat.mod_le _ _).trans (Nat.add_le_add_left hone _)

/-- The tick step over another buffer: the same, and the bytes written so far still agree. -/
theorem tickStep_over {s u : State} {b : Memory} {r : Word} (h : s.SameButStaleBytes (s.over b r))
    (hu : tickStep s = .next u) :
    ∃ b', tickStep (s.over b r) = .next (u.over b' r) ∧ u.SameButStaleBytes (u.over b' r) := by
  cases hf : s.fsm with
  | idle =>
    rw [tickStep_idle hf] at hu
    cases hu
    exact ⟨b, tickStep_idle hf, h⟩
  | seek =>
    rw [tickStep_seek hf] at hu
    cases hu
    refine ⟨b, (tickStep_seek (s := s.over b r) hf).trans (congrArg _ (seekTick_over s b r)),
      sameButStaleBytes_over fun hl i hi => ?_⟩
    rw [idx_of_seekTick_locked hf hl] at hi
    exact absurd hi (Nat.not_lt_zero i)
  | locked =>
    have hcurrent := h.current hf
    cases lockedTick_of_tickStep hf hu with
    | wait htmr => exact ⟨b, tickStep_wait (s := s.over b r) hf htmr, sameButStaleBytes_over fun _ => hcurrent⟩
    | sample htmr hbit =>
      exact ⟨b, tickStep_sample (s := s.over b r) hf htmr hbit, sameButStaleBytes_over fun _ => hcurrent⟩
    | byte hdue =>
      have hgate := byteGate_over hcurrent s.sampled s.byteStored (Memory.set b s.fr.idx.toNat s.sampled)
      refine ⟨Memory.set b s.fr.idx.toNat s.sampled,
        (tickStep_byteDue (s := s.over b r) hdue).trans (congrArg _ hgate), sameButStaleBytes_over fun _ i hi => ?_⟩
      rw [← hgate]
      have hover := bufRead_byteGate (s.over b r) s.fr.idx.toNat s.sampled i
      refine (bufRead_byteGate s _ _ i).trans (Eq.trans ?_ hover.symm)
      rw [byteGate_fr] at hi
      have hle := toNat_add_one_le s.fr.idx
      split_ifs with hidx hidx' hidx'
      · rfl
      · exact absurd hidx hidx'
      · exact absurd hidx' hidx
      · exact hcurrent i (by change i < (s.fr.idx + 1).toNat at hi; omega)

/-! ## The whole step -/

theorem requestEffect_over (i : Instr) (s u : State) (b b' : Memory) (r r' : Word) :
    requestEffect i (s.over b r) (u.over b' r') = (requestEffect i s u).over b' r' := by
  cases i with
  | wrCtrl _ | wrSyncWord _ | wrConfig _ | wrCrcAuxClr _ =>
    simp only [requestEffect, apply_ite (State.over · b' r')]
    rfl
  | _ => rfl

/-- R114: the effect of a request leaves the attempt as it is, or begins a search. -/
theorem requestEffect_attempt (i : Instr) (s u : State) :
    (requestEffect i s u).fsm = .seek ∨ u.SameAttempt (requestEffect i s u) := by
  cases i with
  | wrCtrl _ =>
    dsimp only [requestEffect]
    split
    · exact .inl rfl
    · exact .inr (.refl u)
  | wrSyncWord _ | wrConfig _ | wrCrcAuxClr _ =>
    dsimp only [requestEffect]
    split <;> exact .inr ⟨rfl, rfl, rfl, rfl, rfl⟩
  | _ => exact .inr ⟨rfl, rfl, rfl, rfl, rfl⟩

/-- The agreement of the bytes written so far is of the sequencer, IDX and the buffers. -/
theorem State.SameButStaleBytes.of_attempt {u w : State} {b : Memory} {r r' : Word}
    (h : u.SameButStaleBytes (u.over b r)) (hw : w.fsm ≠ .locked ∨ u.SameAttempt w) (hb : w.buf = u.buf) :
    w.SameButStaleBytes (w.over b r') := by
  refine sameButStaleBytes_over fun hl i hi => ?_
  rcases hw with hnot | hsame
  · exact absurd hl hnot
  · rw [hsame.fr] at hi
    exact (bufRead_congr hb i).trans (h.current (hsame.fsm.symm.trans hl) i hi)

theorem exec_over {i : Instr} {s t : State} {b : Memory} {r : Word} (h : s.SameButStaleBytes (s.over b r))
    (ht : exec i s = .next t) :
    ∃ b' r', exec i (s.over b r) = .next (t.over b' r') ∧ t.SameButStaleBytes (t.over b' r') := by
  obtain ⟨u, -, -, hu, -⟩ := exec_effect ht
  obtain ⟨b', hu', hsame⟩ := tickStep_over h hu
  obtain ⟨d, -, rfl⟩ := exec_next_requestEffect hu ht
  obtain ⟨d', -, e⟩ := exec_eq_requestEffect i (s.over b r)
  obtain ⟨-, -, -, hbuf⟩ := requestEffect_frame i s u
  refine ⟨b', d', ?_, hsame.of_attempt ?_ hbuf⟩
  · rw [e, hu', onNext_next, requestEffect_over]
    rfl
  · rcases requestEffect_attempt i s u with hseek | ⟨hfsm, hcls, hdet, hfr, hres⟩
    · exact .inl (by rw [State.withRdata_fsm, hseek]; decide)
    · exact .inr ⟨hfsm, hcls, hdet, hfr, hres⟩

theorem step_over {s t : State} {b : Memory} {r : Word} (h : s.SameButStaleBytes (s.over b r)) (ht : step s = .next t) :
    ∃ b' r', step (s.over b r) = .next (t.over b' r') ∧ t.SameButStaleBytes (t.over b' r') := by
  cases hrst : s.pins.rst with
  | true =>
    rw [step_of_reset hrst] at ht
    cases ht
    exact ⟨b, 0x0000, step_of_reset (s := s.over b r) hrst, sameButStaleBytes_over fun hl => nomatch hl⟩
  | false =>
    cases hreq : s.pins.reqValid with
    | true =>
      rw [step_of_request hrst hreq] at ht
      obtain ⟨w, hw, rfl⟩ := onNext_eq_next.1 ht
      obtain ⟨b', r', e, hsame⟩ := exec_over h hw
      refine ⟨b', r', ?_, hsame.of_attempt (.inr ⟨rfl, rfl, rfl, rfl, rfl⟩) rfl⟩
      have e' := step_of_request (s := s.over b r) hrst hreq
      rw [e', show decode (s.over b r).pins.req = decode s.pins.req from rfl, e]
      rfl
    | false =>
      rw [step_of_quiet hrst hreq] at ht
      obtain ⟨w, hw, rfl⟩ := onNext_eq_next.1 ht
      obtain ⟨u, hu, rfl⟩ := onNext_eq_next.1 hw
      obtain ⟨b', hu', hsame⟩ := tickStep_over h hu
      refine ⟨b', 0x0000, ?_, hsame.of_attempt (.inr ⟨rfl, rfl, rfl, rfl, rfl⟩) rfl⟩
      rw [step_of_quiet (s := s.over b r) hrst hreq, quietTick_of_tick hu']
      rfl

/-- Settles O53: the second state is the first over another buffer, and a step over another buffer is the same step. -/
theorem staleBytesNeverMatter : Obligations.StaleBytesNeverMatter := by
  intro s s' t h ht
  have heq := h.eq_over
  rw [heq] at h ⊢
  obtain ⟨b', r', ht', hsame⟩ := step_over h ht
  exact ⟨t.over b' r', ht', hsame⟩

end Sys2Proof.Machine
end

section
/-! What every word decodes to (R49, R61): an operation whose direction, address and write data are those of the word. -/

namespace Sys2Proof

/-- R48: the index of a window address gives the address back. -/
theorem windowAddr_bufIndex {a : Addr} (h : Addr.inBufWindow a = true) : 0x200 + (Addr.bufIndex a).setWidth 12 = a := by
  rw [Addr.inBufWindow_iff] at h
  have hindex : (Addr.bufIndex a).toNat = a.toNat - 0x200 := by
    rw [Addr.bufIndex, BitVec.toNat_setWidth]
    bv_omega
  apply BitVec.eq_of_toNat_eq
  rw [windowAddr_toNat, hindex]
  omega

/-- R30: an address past the registers and outside the window is unmapped. -/
theorem Addr.isUnmapped_of_not {a : Addr} (hreg : 14 ≤ a.toNat) (hwin : ¬ Addr.inBufWindow a = true) :
    Addr.isUnmapped a = true := by
  have := a.isLt
  rw [Addr.inBufWindow_iff] at hwin
  simp only [Addr.isUnmapped, Bool.or_eq_true, Bool.and_eq_true, decide_eq_true_eq]
  omega

/-- R30: the registers are the addresses 0x000 to 0x00D. -/
theorem Addr.exists_register {a : Addr} (h : ¬ 14 ≤ a.toNat) : ∃ k : Fin 14, a = BitVec.ofNat 12 k :=
  ⟨⟨a.toNat, Nat.lt_of_not_le h⟩, by simp⟩

/-- The operation is well formed and carries this direction, address and write data. -/
def Instr.Carries (i : Instr) (w : Bool) (a : Addr) (d : Word) : Prop :=
  i.wellFormed = true ∧ i.isWrite = w ∧ i.addr = a ∧ i.wdata = d

theorem Instr.Carries.encode {i : Instr} {w : Bool} {a : Addr} {d : Word} (h : i.Carries w a d) :
    i.wellFormed = true ∧ encode i = ReqWord.ofFields w 0 a d := by
  obtain ⟨hwf, hw, ha, hd⟩ := h
  rw [Sys2Proof.encode, hw, ha, hd]
  exact ⟨hwf, rfl⟩

theorem decodeRead_carries (a : Addr) : (decodeRead a).Carries false a 0 := by
  by_cases hreg : 14 ≤ a.toNat
  · rw [decodeRead_of_not_register hreg]
    split
    · rename_i hwin
      exact ⟨rfl, rfl, windowAddr_bufIndex hwin, rfl⟩
    · rename_i hwin
      exact ⟨Addr.isUnmapped_of_not hreg hwin, rfl, rfl, rfl⟩
  · obtain ⟨k, rfl⟩ := Addr.exists_register hreg
    fin_cases k <;> exact ⟨rfl, rfl, rfl, rfl⟩

theorem decodeWrite_carries (a : Addr) (d : Word) : (decodeWrite a d).Carries true a d := by
  by_cases hreg : 14 ≤ a.toNat
  · rw [decodeWrite_of_not_register hreg]
    split
    · rename_i hwin
      exact ⟨rfl, rfl, windowAddr_bufIndex hwin, rfl⟩
    · rename_i hwin
      exact ⟨Addr.isUnmapped_of_not hreg hwin, rfl, rfl, rfl⟩
  · obtain ⟨k, rfl⟩ := Addr.exists_register hreg
    fin_cases k <;> exact ⟨rfl, rfl, rfl, rfl⟩

/-- Settles O2: the decoded operation carries the word's fields, and a read's write data is 0. -/
theorem encodeDecodeGivesWordBack : Obligations.EncodeDecodeGivesWordBack := by
  intro q
  rw [decode]
  split
  · rename_i hwrite
    rw [hwrite]
    exact (decodeWrite_carries _ _).encode
  · rename_i hread
    rw [Bool.eq_false_iff.2 hread]
    exact (decodeRead_carries _).encode

/-- Settles O4: each word by evaluation. -/
theorem sampleWordsDecode : Obligations.SampleWordsDecode := by
  unfold Obligations.SampleWordsDecode
  decide

end Sys2Proof
end

section
/-! The CRC (R99 to R108): its right-shifting form, and that no step of it loses information. -/

namespace Sys2Proof.Machine

/-! ## The right-shifting form (R104) -/

/-- One round of the right-shifting form: bit 0 falls out, and 0xA001 is XORed in where it was set. -/
def rightRound (c : Word) : Word := if c.getLsbD 0 = true then (c >>> 1) ^^^ 0xA001 else c >>> 1

theorem reverse_xor {w : Nat} (x y : BitVec w) : (x ^^^ y).reverse = x.reverse ^^^ y.reverse := by
  refine BitVec.eq_of_getLsbD_eq fun i hi => ?_
  simp only [BitVec.getLsbD_reverse, BitVec.getLsbD_xor, BitVec.getMsbD_xor]

theorem reverse_shiftLeft_one (c : Word) : (c <<< 1).reverse = c.reverse >>> 1 := by
  refine BitVec.eq_of_getLsbD_eq fun i hi => ?_
  rw [BitVec.getLsbD_reverse, BitVec.getMsbD_eq_getLsbD, BitVec.getLsbD_shiftLeft, BitVec.getLsbD_ushiftRight,
    BitVec.getLsbD_reverse, BitVec.getMsbD_eq_getLsbD]
  by_cases hlast : i = 15
  · simp [hlast]
  · have hcarry : 16 - 1 - i - 1 = 16 - 1 - (1 + i) := by omega
    have hlow : ¬ 16 - 1 - i < 1 := by omega
    simp [hcarry, hlow, hi, show 16 - 1 - i < 16 by omega, show 1 + i < 16 by omega]

theorem reverse_getLsbD_zero (c : Word) : c.reverse.getLsbD 0 = c.getLsbD 15 := by
  rw [BitVec.getLsbD_reverse, BitVec.getMsbD_eq_getLsbD]
  rfl

/-- Reflection takes the left-shifting round to the right-shifting one: 0xA001 is 0x8005 reflected. -/
theorem reverse_crcRound : Function.Semiconj BitVec.reverse crcRound rightRound := by
  intro c
  have hpoly : (0x8005 : Word).reverse = 0xA001 := by decide
  rw [crcRound, rightRound, reverse_getLsbD_zero]
  split
  · rw [reverse_xor, reverse_shiftLeft_one, hpoly]
  · exact reverse_shiftLeft_one c

theorem crcRounds_eq_iterate (n : Nat) (c : Word) : crcRounds n c = crcRound^[n] c := by
  induction n generalizing c with
  | zero => rfl
  | succ n ih => rw [crcRounds, ih, Function.iterate_succ_apply]

/-- The reflected byte enters at the top, so reflected again it enters at the bottom as it is. -/
theorem reverse_topByte (b : Byte) : (b.reverse.setWidth 16 <<< 8 : Word).reverse = b.setWidth 16 := by
  refine BitVec.eq_of_getLsbD_eq fun i hi => ?_
  rw [BitVec.getLsbD_reverse, BitVec.getMsbD_eq_getLsbD, BitVec.getLsbD_shiftLeft, BitVec.getLsbD_setWidth,
    BitVec.getLsbD_reverse, BitVec.getMsbD_eq_getLsbD, BitVec.getLsbD_setWidth]
  by_cases hbyte : i < 8
  · have hindex : 8 - 1 - (16 - 1 - i - 8) = i := by omega
    simp [hi, hbyte, hindex, show 16 - 1 - i < 16 by omega, show ¬ 16 - 1 - i < 8 by omega,
      show 16 - 1 - i - 8 < 16 by omega, show 16 - 1 - i - 8 < 8 by omega]
  · simp [hi, show 16 - 1 - i < 8 by omega, BitVec.getLsbD_of_ge b i (by omega)]

/-- One byte of the right-shifting form. -/
def rightUpdate (c : Word) (b : Byte) : Word := (List.range 8).foldl (fun x _ => rightRound x) (c ^^^ b.setWidth 16)

theorem rightUpdate_reverse (c : Word) (b : Byte) : rightUpdate c.reverse b = (crcUpdate c b).reverse := by
  rw [rightUpdate, List.foldl_const, List.length_range, crcUpdate, crcRounds_eq_iterate,
    (reverse_crcRound.iterate_right 8).eq, reverse_xor, reverse_topByte]

/-- Settles O59: reflection carries the whole run of one form to that of the other, from 0x0000, which is its own
reflection. -/
theorem rightShiftingCrcAgrees : Obligations.RightShiftingCrcAgrees := by
  intro bs
  have hzero : (0x0000 : Word).reverse = 0x0000 := by decide
  have hrun : bs.foldl rightUpdate (0x0000 : Word).reverse = (crcFold 0x0000 bs).reverse :=
    List.foldl_hom BitVec.reverse rightUpdate_reverse
  rw [hzero] at hrun
  exact congrArg (· ^^^ 0xFFFF) hrun.symm

/-! ## What the CRC keeps apart (R108) -/

theorem crcRound_getLsbD_zero (c : Word) : (crcRound c).getLsbD 0 = c.getLsbD 15 := by
  rw [crcRound]
  split
  · rename_i htop
    rw [htop, BitVec.getLsbD_xor, BitVec.getLsbD_shiftLeft]
    rfl
  · rename_i htop
    rw [Bool.eq_false_iff.2 htop, BitVec.getLsbD_shiftLeft]
    rfl

theorem shiftLeft_one_inj {c d : Word} (htop : c.getLsbD 15 = d.getLsbD 15) (h : c <<< 1 = d <<< 1) : c = d := by
  refine BitVec.eq_of_getLsbD_eq fun i hi => ?_
  by_cases hlast : i = 15
  · rw [hlast, htop]
  · have hbit := congrArg (fun x : Word => x.getLsbD (i + 1)) h
    simpa only [BitVec.getLsbD_shiftLeft, show i + 1 < 16 by omega, Nat.add_sub_cancel, show ¬ i + 1 < 1 by omega,
      decide_true, decide_false, Bool.not_false, Bool.true_and] using hbit

/-- Bit 0 of a round's result tells which bit fell out, so the round can be undone. -/
theorem crcRound_injective : Function.Injective crcRound := by
  intro c d h
  have htop : c.getLsbD 15 = d.getLsbD 15 := by rw [← crcRound_getLsbD_zero, h, crcRound_getLsbD_zero]
  rw [crcRound, crcRound, htop] at h
  split at h
  · exact shiftLeft_one_inj htop ((BitVec.xor_left_inj _).1 h)
  · exact shiftLeft_one_inj htop h

theorem crcRounds_injective (n : Nat) : Function.Injective (crcRounds n) := by
  rw [funext (crcRounds_eq_iterate n)]
  exact crcRound_injective.iterate n

theorem crcUpdate_left_injective (b : Byte) : Function.Injective fun c => crcUpdate c b :=
  fun _ _ h => (BitVec.xor_left_inj _).1 (crcRounds_injective 8 h)

theorem crcUpdate_right_injective (c : Word) : Function.Injective (crcUpdate c) := by
  intro b b' h
  have htop := congrArg BitVec.reverse ((BitVec.xor_right_inj _).1 (crcRounds_injective 8 h))
  rw [reverse_topByte, reverse_topByte] at htop
  simpa [BitVec.setWidth_setWidth_of_le] using congrArg (BitVec.setWidth 8) htop

theorem crcFold_injective (bs : List Byte) : Function.Injective fun c => crcFold c bs := by
  induction bs with
  | nil => exact fun _ _ h => h
  | cons b bs ih => exact fun _ _ h => crcUpdate_left_injective b (ih h)

theorem crcFinal_injective : Function.Injective crcFinal := by
  intro c d h
  have hrev : c.reverse = d.reverse := (BitVec.xor_left_inj _).1 h
  rw [← BitVec.reverse_reverse_eq (x := c), hrev, BitVec.reverse_reverse_eq]

/-- R108: a zero byte leaves the zero register as it is. -/
theorem crcFold_zeros (n : Nat) : crcFold 0x0000 (List.replicate n 0x00) = 0x0000 := by
  have hzero : crcUpdate 0x0000 0x00 = 0x0000 := by decide
  induction n with
  | zero => rfl
  | succ n ih => rw [List.replicate_succ, crcFold, List.foldl_cons, hzero, ← crcFold, ih]

/-- Settles O60: the changed byte changes the register, and neither the later bytes nor the final step can undo it; leading zero
bytes leave the initial register; the two examples by evaluation. -/
theorem crcSeesAnyOneByteChange : Obligations.CrcSeesAnyOneByteChange := by
  refine ⟨fun pre post b b' hne h => hne ?_, fun n bs => ?_, by decide +kernel, by decide +kernel⟩
  · have hfold := crcFinal_injective h
    rw [crcFold_append, crcFold_append] at hfold
    exact crcUpdate_right_injective _ (crcFold_injective post hfold)
  · rw [crc16, crcFold_append, crcFold_zeros, crc16]

/-- Settles O58: each example by evaluation. -/
theorem crcExamples : Obligations.CrcExamples := by
  unfold Obligations.CrcExamples
  decide +kernel

end Sys2Proof.Machine
end

section
/-! The search (R70 to R88): the phases that are not counted or do not lock, the one that does, a whole training sequence, and
how long a search with a limit lasts. -/

namespace Sys2Proof.Machine

/-! ## One SEEK tick -/

/-- Settles O26: the phase that ends was not seen to begin, so none is delivered. -/
theorem partialPhaseIsNotDelivered : Obligations.PartialPhaseIsNotDelivered := by
  intro s hf hlvl hpart hrx
  rw [← clsEdge_of_haveLvl hlvl]
  exact tickStep_no_phase hf (classifyTick_partial hlvl hrx hpart)

theorem detPhase_high {s : State} (he : s.det.expect = true) (hl : lockTest s.params s.det = false) (d : BitVec 16) :
    detPhase ⟨true, d, .valid⟩ s = s.withDet (detHigh s.det) := by
  simp [detPhase, he, hl]

theorem detPhase_ignored {s : State} {l : Level} (h : l ≠ s.det.expect) (d : BitVec 16) :
    detPhase ⟨l, d, .valid⟩ s = s := by
  rcases detPhase_cases ⟨l, d, .valid⟩ s with ⟨hshort, -⟩ | ⟨-, hl, he, -⟩ | ⟨-, hl, he, -⟩ | ⟨-, hl, he, -⟩ | ⟨-, -, e⟩
  · cases hshort
  · exact absurd (hl.trans he.symm) h
  · exact absurd (hl.trans he.symm) h
  · exact absurd (hl.trans he.symm) h
  · exact e

/-- Settles O28: the lock test of the detector is that of the statement, and the count saturates at the greatest 4-bit
value. -/
theorem validHighIsCounted : Obligations.ValidHighIsCounted := by
  intro s h hends hvalid hhigh hexpect hh htest
  have hcount : satSucc s.det.hrun = BitVec.ofNat 4 h := hh ▸ satSucc_eq_ofNat s.det.hrun
  have hfail : lockTest s.params s.det = false := Bool.eq_false_iff.2 (mt State.lockTestPasses_of_lockTest htest)
  have hd : classifyTick s = (s.withCls (clsEdge s.rx s.cls)).withDet (detHigh s.det) := by
    rw [classifyTick_phaseEnds hends, hvalid.classify, hhigh,
      detPhase_high (s := s.withCls (clsEdge s.rx s.cls)) hexpect hfail, State.withCls_det]
  rw [← hcount]
  exact tickStep_phaseEnds hends hd rfl

/-- Settles O31: DET_PHASE ignores the phase, and in a running block a low is expected only in a low phase. -/
theorem unexpectedPhaseIsIgnored : Obligations.UnexpectedPhaseIsIgnored := by
  intro s hends hvalid hne
  have hd : classifyTick s = (s.withCls (clsEdge s.rx s.cls)).withDet s.det := by
    rw [classifyTick_phaseEnds hends, hvalid.classify, detPhase_ignored (s := s.withCls (clsEdge s.rx s.cls)) hne]
    rfl
  refine ⟨tickStep_phaseEnds hends hd rfl, fun hi => ?_⟩
  obtain ⟨hf, -⟩ := hends
  cases hexpect : s.det.expect with
  | true => exact ⟨Bool.eq_false_iff.2 (hexpect ▸ hne), rfl⟩
  | false =>
    obtain ⟨-, -, -, hlow⟩ := (hi.seekOk hf).oneAhead hexpect
    exact absurd (hlow.trans hexpect.symm) hne

/-! ## The whole step -/

/-- R60: the sequencer of a busy block is the tick step's, whatever the host requests. -/
theorem step_seek_cases {s t : State} (hf : s.fsm = .seek) (hrst : s.pins.rst = false) (h : step s = .next t) :
    ∃ u, tickStep s = .next u ∧ u.SameAttempt t ∧ t.params = s.params ∧ t.inputs = s.inputs.tail := by
  obtain ⟨u, a, r, hu, rfl⟩ := step_of_busy (by simp [hf]) hrst h
  have hframe := tickFrame_tickStep hu
  exact ⟨u, hu, ⟨rfl, rfl, rfl, rfl, rfl⟩, hframe.params, congrArg List.tail hframe.inputs⟩

/-- R85: in a running block the runs are in step where a high is expected, so the lock test asks only for `MIN_TRAIN`. -/
theorem State.Inv.lockTestPasses {s : State} (hi : s.Inv) (hf : s.fsm = .seek) (hexpect : s.det.expect = true)
    (htrain : s.det.hrun.toNat + 1 = s.params.minTrain) : s.LockTestPasses := by
  have hruns : s.det.lrun.toNat = s.det.hrun.toNat := congrArg BitVec.toNat ((hi.seekOk hf).inStep hexpect)
  obtain ⟨-, -, -, hmax, -⟩ := hi.legal
  unfold State.LockTestPasses
  omega

/-- Settles O35: a lock has its cause among the transitions, where the count is below `MIN_TRAIN` before; and in a running block
the `MIN_TRAIN`-th high passes the lock test. -/
theorem lockExactlyAtMinTrain : Obligations.LockExactlyAtMinTrain := by
  intro s t hi hf hrst h
  obtain ⟨u, hu, hsame, -⟩ := step_seek_cases hf hrst h
  rw [hsame.fsm]
  constructor
  · intro hl
    rcases tickStep_search_cases hf with ⟨-, e⟩ | ⟨-, -, -, e⟩ <;> rw [e] at hu <;> cases hu
    · obtain ⟨hends, hvalid, hhigh, hexpect, htest⟩ := classifyTick_locked hf hl
      have hrun := hi.hrun_at_lock hf htest
      have hbelow := (hi.seekOk hf).belowTrain
      obtain ⟨-, -, -, hmax, -⟩ := hi.legal
      exact ⟨hends, hvalid, hhigh, hexpect, by omega⟩
    · cases hl
  · rintro ⟨hends, hvalid, hhigh, hexpect, htrain⟩
    have hlock := classifyTick_lock hends hvalid hhigh hexpect (hi.lockTestPasses hf hexpect htrain)
    rw [tickStep_of_lock hf (by rw [hlock]; rfl) (by rw [hlock]; rfl)] at hu
    cases hu
    rw [hlock]
    rfl

/-! ## A training sequence -/

/-- The phases of a training sequence of `k + 1` highs with `k` lows between them, all valid (R77). -/
def trainingPhases (durs : Nat → BitVec 16) (k : Nat) : List Phase :=
  (List.range (2 * k + 1)).map fun j => ⟨j % 2 == 0, durs j, .valid⟩

theorem trainingPhases_succ (durs : Nat → BitVec 16) (k : Nat) :
    trainingPhases durs (k + 1) =
      trainingPhases durs k ++ [⟨false, durs (2 * k + 1), .valid⟩, ⟨true, durs (2 * k + 2), .valid⟩] := by
  have hlow : (2 * k + 1) % 2 = 1 := by omega
  have hhigh : (2 * k + 2) % 2 = 0 := by omega
  rw [trainingPhases, show 2 * (k + 1) + 1 = 2 * k + 1 + 1 + 1 by omega, List.range_succ, List.range_succ, List.append_assoc,
    List.map_append, trainingPhases]
  simp [hlow, hhigh]

/-- What a training sequence has counted, the search still going on: `k + 1` highs and `k` lows. -/
structure State.Trained (s : State) (p : Params) (k : Nat) : Prop where
  params : s.params = p
  seek : s.fsm = .seek
  expect : s.det.expect = false
  highs : s.det.hrun.toNat = k + 1
  lows : s.det.lrun.toNat = k

/-- `t` is what the detector leaves of the search `s` after `k + 1` highs and `k` lows: still searching below `MIN_TRAIN`, and
locked at it (R78). -/
def State.TrainsTo (s t : State) (k : Nat) : Prop :=
  (k + 1 < s.params.minTrain → t.Trained s.params k) ∧
    (k + 1 = s.params.minTrain → t.fsm = .locked ∧ t.det.hrun.toNat = k + 1 ∧ t.det.lrun.toNat = k)

/-- R81: an expected valid high, below the greatest count: it is counted, and locks at `MIN_TRAIN` where the runs are in
step. -/
theorem trainsTo_detPhase_high {s : State} {k : Nat} (hf : s.fsm = .seek) (hexpect : s.det.expect = true)
    (hhighs : s.det.hrun.toNat = k) (hlows : s.det.lrun.toNat = k) (hk : k < 15) (d : BitVec 16) :
    s.TrainsTo (detPhase ⟨true, d, .valid⟩ s) k := by
  have hcount : (satSucc s.det.hrun).toNat = k + 1 := by rw [satSucc_toNat_of_lt (by omega), hhighs]
  have htest := lockTest_iff s.params s.det
  rw [hcount, hlows] at htest
  refine ⟨fun hbelow => ?_, fun hmin => ?_⟩
  · rw [detPhase_high hexpect (Bool.eq_false_iff.2 (mt htest.1 (by omega)))]
    exact ⟨rfl, hf, rfl, hcount, hlows⟩
  · rw [detPhase_lock hexpect (htest.2 ⟨Nat.le_of_eq hmin.symm, rfl⟩)]
    exact ⟨rfl, hcount, hlows⟩

/-- By induction on the number of lows: each low and high after the first high counts one more of each. -/
theorem trainsTo_trainingPhases {s : State} {durs : Nat → BitVec 16} (hlegal : s.params.Legal) (hf : s.fsm = .seek)
    (hexpect : s.det.expect = true) (hhighs : s.det.hrun = 0) (hlows : s.det.lrun = 0) (k : Nat) :
    s.TrainsTo ((trainingPhases durs k).foldl (fun u ph => detPhase ph u) s) k := by
  obtain ⟨-, -, -, hmax, -⟩ := hlegal
  induction k with
  | zero =>
    exact trainsTo_detPhase_high (k := 0) hf hexpect (congrArg BitVec.toNat hhighs) (congrArg BitVec.toNat hlows) (by omega)
      (durs 0)
  | succ k ih =>
    obtain ⟨htrained, -⟩ := ih
    rw [trainingPhases_succ, List.foldl_append]
    generalize (trainingPhases durs k).foldl (fun u ph => detPhase ph u) s = u at htrained ⊢
    by_cases hk : k + 1 < s.params.minTrain
    · obtain ⟨hparams, hseek, hlow, huhigh, hulow⟩ := htrained hk
      have hcount : (satSucc u.det.lrun).toNat = k + 1 := by rw [satSucc_toNat_of_lt (by omega), hulow]
      rw [List.foldl_cons, detPhase_low hlow, List.foldl_cons, List.foldl_nil, State.TrainsTo, ← hparams]
      exact trainsTo_detPhase_high (s := u.withDet (detLow u.det)) hseek rfl huhigh hcount (by omega) _
    · exact ⟨fun h => absurd h (by omega), fun h => absurd h (by omega)⟩

/-- Settles O36: the phases are those of `trainingPhases`. -/
theorem alternatingTrainingLocks : Obligations.AlternatingTrainingLocks := by
  intro s k durs hlegal hf hexpect hhighs hlows
  obtain ⟨hsearch, hlock⟩ := trainsTo_trainingPhases (durs := durs) hlegal hf hexpect hhighs hlows k
  refine ⟨_, rfl, fun hk => ?_, hlock⟩
  obtain ⟨-, hseek, -, hhigh, hlow⟩ := hsearch hk
  exact ⟨hseek, hhigh, hlow⟩

end Sys2Proof.Machine
end

section
/-! Runs of several ticks without reset. -/

namespace Sys2Proof.Machine

theorem run_succ_of_step {M : Host.Core} {s t : M.State} (h : M.step s = .next t) (n : Nat) :
    M.run (n + 1) s = M.run n t := by
  simp only [Host.Core.run, h]

theorem run_add {M : Host.Core} {s t : M.State} {m : Nat} (h : M.run m s = .next t) (n : Nat) :
    M.run (m + n) s = M.run n t := by
  induction m generalizing s with
  | zero =>
    cases h
    rw [Nat.zero_add]
  | succ m ih =>
    rw [Nat.add_right_comm]
    cases hs : M.step s with
    | next u =>
      rw [run_succ_of_step hs] at h ⊢
      exact ih h
    | fault r => simp only [Host.Core.run, hs] at h; cases h
    | refused r => simp only [Host.Core.run, hs] at h; cases h

theorem core_run_succ {s t : State} (h : step s = .next t) (n : Nat) : core.run (n + 1) s = core.run n t :=
  run_succ_of_step (M := core) h n

theorem core_run_add {s t : State} {m : Nat} (h : core.run m s = .next t) (n : Nat) :
    core.run (m + n) s = core.run n t :=
  run_add h n

/-- The coming tick of a run without reset holds no reset, and the rest is a run without reset. -/
theorem State.NoReset.head {s : State} {n : Nat} (h : s.NoReset (n + 1)) : s.pins.rst = false := by
  obtain ⟨hlen, hrst⟩ := h
  cases hin : s.inputs with
  | nil => simp [hin] at hlen
  | cons p q =>
    rw [State.pins, hin]
    exact hrst p (by simp [hin])

theorem State.NoReset.tail {s t : State} {n : Nat} (h : s.NoReset (n + 1)) (ht : t.inputs = s.inputs.tail) :
    t.NoReset n := by
  obtain ⟨hlen, hrst⟩ := h
  cases hin : s.inputs with
  | nil => simp [hin] at hlen
  | cons p q =>
    rw [hin] at hlen hrst ht
    rw [List.tail_cons] at ht
    refine ⟨?_, fun p' hp' => hrst p' ?_⟩
    · rw [ht]
      exact Nat.le_of_succ_le_succ hlen
    · rw [List.take_succ_cons]
      exact List.mem_cons_of_mem _ (ht ▸ hp')

/-! ## The bounded search -/

/-- Settles O33, by induction on the ticks left: each SEEK tick ends the wait, or is counted and leaves one fewer; and TIMEOUT
comes only in the last. -/
theorem timeoutBoundsTheWait : Obligations.TimeoutBoundsTheWait := by
  intro s hi hf hlimit hnr
  generalize hn : s.params.lockTimeout - s.det.wcnt.toNat = n at hnr ⊢
  induction n generalizing s with
  | zero =>
    have := (hi.seekOk hf).belowLimit hlimit
    omega
  | succ n ih =>
    have hrst := hnr.head
    obtain ⟨t, ht⟩ := stepNeverStops s hi
    have hti := stepKeepsInvariant s t hi ht
    obtain ⟨u, hu, hsame, hparams, hinputs⟩ := step_seek_cases hf hrst ht
    have hwcnt := searchTicks_toNat s
    obtain ⟨-, -, -, -, -, hmax, -⟩ := hi.legal
    have hticks : s.searchTicks = min (s.det.wcnt.toNat + 1) (2 ^ 32 - 1) := rfl
    rcases tickStep_search_cases hf with ⟨hend, e⟩ | ⟨-, -, hout, e⟩ <;> rw [e] at hu <;> cases hu
    · rcases searched_seek_or_locked hf with hseek | hlock
      · have hin := hend.resolve_left (by simp [hseek])
        have hcount : t.det.wcnt.toNat = s.searchTicks := by rw [hsame.det]; exact hwcnt
        have hleft : t.params.lockTimeout - t.det.wcnt.toNat = n := by rw [hparams, hcount]; omega
        obtain ⟨k, v, hk1, hkn, hrun, hv⟩ :=
          ih t hti (hsame.fsm.trans hseek) (hparams ▸ hlimit) hleft (hnr.tail hinputs)
        refine ⟨k + 1, v, by omega, by omega, (core_run_succ ht k).trans hrun, hv.imp_right ?_⟩
        exact And.imp_left (congrArg (· + 1))
      · exact ⟨1, t, Nat.le_refl 1, by omega, core_run_succ ht 0, .inl (hsame.fsm.trans hlock)⟩
    · have hlast : n = 0 := by
        have hreached : ¬ s.searchTicks < s.params.lockTimeout := fun hlt => hout (.inr hlt)
        omega
      refine ⟨1, t, Nat.le_refl 1, by omega, core_run_succ ht 0, .inr ⟨by omega, hsame.fsm, ?_⟩⟩
      rw [hsame.res]
      exact ⟨rfl, rfl, rfl⟩

end Sys2Proof.Machine
end

section
/-! A LOCKED attempt ends (R96): every tick leaves one tick fewer of those its remaining samples can take. -/

namespace Sys2Proof.Machine

/-- The samples after the next one, up to the last bit of the last byte the buffer holds. -/
def State.samplesLeft (s : State) : Nat := 8 * (s.params.maxDataLen + 5 - s.fr.idx.toNat) - s.fr.bitcnt.toNat - 1

/-- The most ticks a LOCKED attempt can still take: to the next sample, and a bit period for each sample after it. -/
def State.ticksLeft (s : State) : Nat := s.fr.tmr.toNat + s.samplesLeft * s.params.bitTicks

/-- R90: a sample loads the timer for one more bit period, of which there is one fewer left. -/
theorem ticksLeft_of_sample {s u : State} (hlegal : s.params.Legal) (hp : u.params = s.params) (htmr : s.fr.tmr = 1)
    (hload : u.fr.tmr = BitVec.ofNat 17 s.params.bitTicks) (hsamples : s.samplesLeft = u.samplesLeft + 1) :
    u.ticksLeft + 1 = s.ticksLeft := by
  have hone : (1 : BitVec 17).toNat = 1 := rfl
  rw [State.ticksLeft, State.ticksLeft, hp, htmr, hload, hsamples, bitWait_toNat hlegal, hone, Nat.add_one_mul]
  omega

/-- R92: a byte whose gate lets the attempt go on leaves room for the next one, so its eighth bit is not the last sample. -/
theorem ticksLeft_byteGate {s : State} (hi : s.Inv) (hdue : s.ByteDue)
    (hroom : (byteGate s s.fr.idx.toNat s.sampled s.byteStored).fr.idx.toNat < s.params.cap) :
    (byteGate s s.fr.idx.toNat s.sampled s.byteStored).ticksLeft + 1 = s.ticksLeft := by
  have hparams : (byteGate s s.fr.idx.toNat s.sampled s.byteStored).params = s.params := (tickFrame_byteGate _ _ _ _).params
  have hfr := byteGate_fr s s.fr.idx.toNat s.sampled s.byteStored
  generalize byteGate s s.fr.idx.toNat s.sampled s.byteStored = u at hroom hparams hfr ⊢
  have hnext : u.fr.idx.toNat = s.fr.idx.toNat + 1 := (congrArg (·.idx.toNat) hfr).trans (hdue.idx_succ hi.legal)
  have hbit' : u.fr.bitcnt.toNat = 0 := congrArg (·.bitcnt.toNat) hfr
  have hcap : s.params.cap = s.params.maxDataLen + 5 := rfl
  obtain ⟨-, htmr, hbit, -⟩ := hdue
  have hbit7 : s.fr.bitcnt.toNat = 7 := congrArg BitVec.toNat hbit
  refine ticksLeft_of_sample hi.legal hparams htmr (congrArg (·.tmr) hfr) ?_
  rw [State.samplesLeft, State.samplesLeft, hparams, hnext, hbit', hbit7]
  omega

/-- R90, R91: a LOCKED tick after which the attempt goes on. -/
theorem State.LockedTick.ticksLeft {s u : State} (h : s.LockedTick u) (hi : s.Inv) (hf : s.fsm = .locked)
    (hl : u.fsm = .locked) : u.ticksLeft + 1 = s.ticksLeft := by
  cases h with
  | wait htmr =>
    obtain ⟨hpos, -⟩ := (hi.lockedOk hf).timer
    have hcount : (s.fr.tmr - 1).toNat + 1 = s.fr.tmr.toNat := by bv_omega
    exact (Nat.add_right_comm _ _ 1).trans (congrArg (· + s.samplesLeft * s.params.bitTicks) hcount)
  | sample htmr hbit =>
    have hroom := hi.bufRoom hf
    have hcap : s.params.cap = s.params.maxDataLen + 5 := rfl
    have hcount : (s.fr.bitcnt + 1).toNat = s.fr.bitcnt.toNat + 1 := by bv_omega
    have hless : s.fr.bitcnt.toNat + 1 ≤ 7 := hcount ▸ Nat.le_of_lt_succ (s.fr.bitcnt + 1).isLt
    refine ticksLeft_of_sample hi.legal rfl htmr rfl ?_
    change 8 * (s.params.maxDataLen + 5 - s.fr.idx.toNat) - s.fr.bitcnt.toNat - 1 =
      8 * (s.params.maxDataLen + 5 - s.fr.idx.toNat) - (s.fr.bitcnt + 1).toNat - 1 + 1
    omega
  | byte hdue =>
    have hparams := (tickFrame_byteGate s s.fr.idx.toNat s.sampled s.byteStored).params
    have hroom := (hi.byteGate hdue).bufRoom hl
    rw [hparams] at hroom
    exact ticksLeft_byteGate hi hdue hroom

/-- R112: a LOCKED tick goes on, or ends the attempt with a result. -/
theorem locked_goes_on_or_ends {s u : State} (hf : s.fsm = .locked) (h : tickStep s = .next u) :
    u.fsm = .locked ∨ (u.fsm = .idle ∧ u.res.result ≠ .none) := by
  have hnot : s.fsm ≠ .seek := by simp [hf]
  cases unitTransition_tickStep h with
  | nothing hfsm => exact .inl (hfsm.trans hf)
  | lock hends _ _ _ _ _ => exact absurd hends.left hnot
  | timeout hseek _ _ _ => exact absurd hseek hnot
  | syncMismatch _ _ _ hfsm hres => exact .inr ⟨hfsm, by simp [hres]⟩
  | lengthOverflow _ _ _ hfsm hres => exact .inr ⟨hfsm, by simp [hres]⟩
  | frameEnd _ _ _ hfsm hres => exact .inr ⟨hfsm, by rcases hres with hres | hres <;> simp [hres]⟩

/-- R146: every result but "none" is recorded with DONE. -/
theorem State.IdleOk.done {s : State} (h : s.IdleOk) (hne : s.res.result ≠ .none) : s.res.done = true := by
  cases hr : s.res.result <;> simp only [State.IdleOk, hr] at h
  case none => exact absurd hr hne
  all_goals exact h.left

/-- Settles O54, by induction on the ticks left. -/
theorem lockedAttemptEnds : Obligations.LockedAttemptEnds := by
  intro s n hi hf hn hnr
  replace hn : n = s.ticksLeft := hn
  induction n generalizing s with
  | zero =>
    obtain ⟨hpos, -⟩ := (hi.lockedOk hf).timer
    rw [State.ticksLeft] at hn
    omega
  | succ n ih =>
    obtain ⟨t, ht⟩ := stepNeverStops s hi
    have hti := stepKeepsInvariant s t hi ht
    obtain ⟨u, a, r, hu, rfl⟩ := step_of_busy (by simp [hf]) hnr.head ht
    rcases locked_goes_on_or_ends hf hu with hl | ⟨hidle, hres⟩
    · have hleft : n = u.ticksLeft := by
        have := (lockedTick_of_tickStep hf hu).ticksLeft hi hf hl
        omega
      have htail := hnr.tail (t := ((u.withAux a).withRdata r).advance) (congrArg List.tail (tickFrame_tickStep hu).inputs)
      obtain ⟨k, v, hk1, hkn, hrun, hv⟩ := ih _ hti hl htail hleft
      exact ⟨k + 1, v, by omega, by omega, (core_run_succ ht k).trans hrun, hv⟩
    · exact ⟨1, _, Nat.le_refl 1, by omega, core_run_succ ht 0, hidle, (hti.idleOk hidle).done hres, hres⟩

end Sys2Proof.Machine
end

section
/-! A frame sent after lock (R90 to R95): tick by tick, the reader holds what the line has shown so far. -/

namespace Sys2Proof.Machine

/-! ## The line in a run without reset -/

theorem State.getElem?_inputs {s t : State} {T : Nat} (h : t.inputs = s.inputs.drop T) (hT : T < s.inputs.length) :
    s.inputs[T]? = some t.pins := by
  have hhead : t.inputs.head? = s.inputs[T]? := by rw [h, List.head?_drop]
  rw [List.getElem?_eq_getElem hT] at hhead ⊢
  rw [State.pins, hhead, Option.getD_some]

/-- The pins of a later tick of the run: no reset, and the line as `rxAt` gives it. -/
theorem State.NoReset.pins {s t : State} {n T : Nat} (h : s.NoReset n) (ht : t.inputs = s.inputs.drop T) (hT : T < n) :
    t.pins.rst = false ∧ t.rx = s.rxAt T := by
  obtain ⟨hlen, hrst⟩ := h
  have hpins := State.getElem?_inputs ht (hT.trans_le hlen)
  refine ⟨hrst _ (List.mem_of_getElem? (i := T) ?_), ?_⟩
  · rw [List.getElem?_take_of_lt hT, hpins]
  · rw [State.rxAt, hpins]
    rfl

/-! ## The bits of a byte -/

/-- R91: the sample is shifted in at the low end. -/
theorem sampled_getLsbD (s : State) (j : Nat) (hj : j < 8) :
    s.sampled.getLsbD j = if j = 0 then decide (s.rx = s.pol) else s.fr.shreg.getLsbD (j - 1) := by
  have hbit : (if s.rx = s.pol then 1 else 0 : Byte).getLsbD j = (decide (j = 0) && decide (s.rx = s.pol)) := by
    split
    · rename_i h
      simp [h]
    · rename_i h
      simp [h]
  rw [State.sampled, BitVec.getLsbD_or, BitVec.getLsbD_shiftLeft, hbit]
  by_cases h0 : j = 0
  · simp [h0]
  · simp [h0, hj, show ¬ j < 1 by omega]

/-- R33: bit `k` of the frame, counted from the end of the byte it stands in. -/
theorem wireBit_sub (frame : List Byte) {k j : Nat} (hk : k % 8 = 7) (hj : j < 8) :
    wireBit frame (k - j) = (frame.getD (k / 8) 0).getLsbD j := by
  have hdiv : (k - j) / 8 = k / 8 := by omega
  have hmod : 7 - (k - j) % 8 = j := by omega
  rw [wireBit, hdiv, hmod]

/-! ## The reader after `T` ticks -/

/-- The reader `T` ticks after `s`, which LOCK left, in a run in which the line sends `frame`; the next sample is number `k`: the
bits of the byte in progress, the bytes before it, LEN and the running CRC are those of the frame. -/
structure State.ReaderAt (s : State) (frame : List Byte) (T k : Nat) (t : State) : Prop where
  params : t.params = s.params
  syncWord : t.syncWord = s.syncWord
  pol : t.pol = s.pol
  locked : t.fsm = .locked
  timer : t.fr.tmr.toNat + T = s.params.offsetTicks + (k + 1) * s.params.bitTicks
  timerRuns : 1 ≤ t.fr.tmr.toNat
  inFrame : k < 8 * frame.length
  bitcnt : t.fr.bitcnt.toNat = k % 8
  idx : t.fr.idx.toNat = k / 8
  shreg : ∀ j, j < k % 8 → t.fr.shreg.getLsbD j = wireBit frame (k - 1 - j)
  bytes : ∀ i, i < k / 8 → bufRead t i = frame.getD i 0
  len : t.fr.len = if k / 8 ≤ 2 then 0 else frame.getD 2 0
  crc : t.CrcHeld

/-- `t` is `T` ticks after `s` with its reader, and the pins of the later ticks still lined up. -/
structure State.Reading (s : State) (frame : List Byte) (T k : Nat) (t : State) : Prop extends s.ReaderAt frame T k t where
  inputs : t.inputs = s.inputs.drop T

/-- What the host reads or writes in a busy tick plays no part. -/
theorem State.ReaderAt.withPorts {s u : State} {frame : List Byte} {T k : Nat} (h : s.ReaderAt frame (T + 1) k u)
    (hinputs : u.inputs = s.inputs.drop T) (a r : Word) :
    s.Reading frame (T + 1) k ((u.withAux a).withRdata r).advance := by
  refine ⟨⟨h.params, h.syncWord, h.pol, h.locked, h.timer, h.timerRuns, h.inFrame, h.bitcnt, h.idx, h.shreg, h.bytes, h.len,
    h.crc⟩, ?_⟩
  change u.inputs.tail = _
  rw [hinputs, List.tail_drop]

/-- What a frame must meet for the gates to let its last byte be reached (R92 to R94). -/
structure State.FrameFits (s : State) (frame : List Byte) : Prop where
  nonempty : 0 < frame.length
  room : frame.length ≤ s.params.cap
  sync : 2 < frame.length → frame.getD 0 0 ++ frame.getD 1 0 = s.syncWord
  length : 3 < frame.length → (frame.getD 2 0).toNat ≤ s.params.maxDataLen ∧ frame.length ≤ (frame.getD 2 0).toNat + 5

/-- LOCK leaves a reader that has read nothing (R84). -/
theorem State.JustLocked.reading {s : State} (h : s.JustLocked) (hlegal : s.params.Legal) {frame : List Byte}
    (hne : 0 < frame.length) : s.Reading frame 0 0 s := by
  obtain ⟨hf, hfr⟩ := h
  have hwait := firstWait_toNat hlegal
  have htmr : s.fr.tmr.toNat = s.params.bitTicks / 8 + s.params.bitTicks := by rw [hfr]; exact hwait
  obtain ⟨hbit, -⟩ := hlegal
  refine ⟨⟨rfl, rfl, rfl, hf, ?_, by omega, by omega, by rw [hfr]; rfl, by rw [hfr]; rfl,
    fun j hj => absurd hj (Nat.not_lt_zero j), fun i hi => absurd hi (Nat.not_lt_zero i), by rw [hfr]; rfl, ?_⟩, rfl⟩
  · rw [htmr, Params.offsetTicks]
    omega
  · rw [State.CrcHeld, hfr]
    rfl

section Tick

variable {s t : State} {frame : List Byte} {T k : Nat}

/-- The sample due is bit `k` of the frame (R91). -/
theorem State.Reading.rx_eq_pol_iff (h : s.Reading frame T k t) (hline : s.LineSends frame) {n : Nat} (hnr : s.NoReset n)
    (hT : T < n) (htmr : t.fr.tmr = 1) : decide (t.rx = t.pol) = wireBit frame k := by
  have htime : T = s.params.offsetTicks + (k + 1) * s.params.bitTicks - 1 := by
    have := h.timer
    have hone : t.fr.tmr.toNat = 1 := congrArg BitVec.toNat htmr
    omega
  obtain ⟨-, hrx⟩ := hnr.pins h.inputs hT
  rw [hrx, h.pol, htime, hline k h.inFrame]
  cases wireBit frame k <;> cases s.pol <;> rfl

theorem State.Reading.sampled_bits (h : s.Reading frame T k t) (hbit : decide (t.rx = t.pol) = wireBit frame k) {j : Nat}
    (hj : j ≤ k % 8) : t.sampled.getLsbD j = wireBit frame (k - j) := by
  rw [sampled_getLsbD t j (by omega)]
  split
  · rename_i h0
    rw [hbit, h0, Nat.sub_zero]
  · rw [h.shreg (j - 1) (by omega)]
    congr 1
    omega

/-- The eighth sample of a byte completes that byte of the frame (R33, R92). -/
theorem State.Reading.sampled_byte (h : s.Reading frame T k t) (hbit : decide (t.rx = t.pol) = wireBit frame k)
    (hk : k % 8 = 7) : t.sampled = frame.getD (k / 8) 0 := by
  refine BitVec.eq_of_getLsbD_eq fun j hj => ?_
  rw [h.sampled_bits hbit (by omega), wireBit_sub frame hk hj]

theorem State.Reading.byteDue (h : s.Reading frame T k t) (hfit : s.FrameFits frame) (htmr : t.fr.tmr = 1)
    (hk : k % 8 = 7) : t.ByteDue := by
  have hroom := hfit.room
  have hcap : s.params.cap = s.params.maxDataLen + 5 := rfl
  have hin := h.inFrame
  refine ⟨h.locked, htmr, BitVec.eq_of_toNat_eq (h.bitcnt.trans hk), ?_⟩
  rw [h.params, h.idx]
  omega

/-- R92 to R94: before the frame's last byte every gate lets the attempt go on. -/
theorem State.Reading.byteGate_passes (h : s.Reading frame T k t) (hfit : s.FrameFits frame)
    (hbyte : t.sampled = frame.getD (k / 8) 0) (hmore : k / 8 + 1 < frame.length) :
    byteGate t t.fr.idx.toNat t.sampled t.byteStored =
      t.byteStoredLen (if k / 8 = 2 then frame.getD 2 0 else t.fr.len) := by
  rw [h.idx]
  rcases byteGate_cases t (k / 8) t.sampled t.byteStored with ⟨h1, -⟩ | ⟨h2, -⟩ | ⟨h3, hlast, -⟩ | ⟨-, h2, -, e⟩
  · have hword : bufRead t 0 ++ t.sampled = t.syncWord := by
      rw [h.syncWord, ← hfit.sync (by omega), h.bytes 0 (by omega), hbyte, h1]
    rw [h1, byteGate_sync, if_pos ((append_eq_iff_toNat _ _ _).1 hword)]
    rfl
  · obtain ⟨hlen, -⟩ := hfit.length (by omega)
    rw [h2] at hbyte
    rw [h2, byteGate_len, h.params, hbyte, if_pos hlen]
    rfl
  · obtain ⟨-, hend⟩ := hfit.length (by omega)
    have hlen : t.fr.len = frame.getD 2 0 := h.len.trans (if_neg (by omega))
    rw [hlen] at hlast
    omega
  · rw [e, if_neg h2]
    rfl

/-! ### The three ways a tick can go -/

theorem State.Reading.wait (h : s.Reading frame T k t) (htmr : t.fr.tmr ≠ 1) :
    s.ReaderAt frame (T + 1) k (t.withFr { t.fr with tmr := t.fr.tmr - 1 }) := by
  have htimer := h.timer
  have hruns := h.timerRuns
  have hcount : (t.fr.tmr - 1).toNat + 1 = t.fr.tmr.toNat := by bv_omega
  have hne : t.fr.tmr.toNat ≠ 1 := fun h1 => htmr (BitVec.eq_of_toNat_eq h1)
  refine ⟨h.params, h.syncWord, h.pol, h.locked, ?_, ?_, h.inFrame, h.bitcnt, h.idx, h.shreg, h.bytes, h.len, h.crc⟩
  · change (t.fr.tmr - 1).toNat + _ = _
    omega
  · change 1 ≤ (t.fr.tmr - 1).toNat
    omega

/-- R90: a sample loads the timer for the next one. -/
theorem State.Reading.load (h : s.Reading frame T k t) (hlegal : s.params.Legal) (htmr : t.fr.tmr = 1) :
    (BitVec.ofNat 17 t.params.bitTicks).toNat + (T + 1) =
        s.params.offsetTicks + (k + 1 + 1) * s.params.bitTicks ∧
      1 ≤ (BitVec.ofNat 17 t.params.bitTicks).toNat := by
  have htimer := h.timer
  have hone : t.fr.tmr.toNat = 1 := congrArg BitVec.toNat htmr
  rw [h.params, bitWait_toNat hlegal, Nat.add_one_mul (k + 1)]
  obtain ⟨hbit, -⟩ := hlegal
  omega

theorem State.Reading.sample (h : s.Reading frame T k t) (hlegal : s.params.Legal) (htmr : t.fr.tmr = 1)
    (hbit : t.fr.bitcnt ≠ 7) (hrx : decide (t.rx = t.pol) = wireBit frame k) (hmore : k + 1 < 8 * frame.length) :
    s.ReaderAt frame (T + 1) (k + 1) (t.withFr { t.fr with
      tmr := BitVec.ofNat 17 t.params.bitTicks, shreg := t.sampled, bitcnt := t.fr.bitcnt + 1 }) := by
  obtain ⟨hload, hruns⟩ := h.load hlegal htmr
  have hbitcnt := h.bitcnt
  have hk : k % 8 ≠ 7 := fun h7 => hbit (BitVec.eq_of_toNat_eq (hbitcnt.trans h7))
  have hdiv : (k + 1) / 8 = k / 8 := by omega
  have hmod : (k + 1) % 8 = k % 8 + 1 := by omega
  refine ⟨h.params, h.syncWord, h.pol, h.locked, hload, hruns, hmore, ?_, hdiv ▸ h.idx, fun j hj => ?_, hdiv ▸ h.bytes,
    hdiv ▸ h.len, h.crc⟩
  · change (t.fr.bitcnt + 1).toNat = _
    rw [hmod, ← hbitcnt]
    bv_omega
  · rw [Nat.add_sub_cancel]
    exact h.sampled_bits hrx (by omega)

theorem State.Reading.byte (h : s.Reading frame T k t) (hlegal : s.params.Legal) (hdue : t.ByteDue)
    (hbyte : t.sampled = frame.getD (k / 8) 0) (hmore : k + 1 < 8 * frame.length) :
    s.ReaderAt frame (T + 1) (k + 1) (t.byteStoredLen (if k / 8 = 2 then frame.getD 2 0 else t.fr.len)) := by
  have hnext := hdue.idx_succ (h.params ▸ hlegal)
  obtain ⟨-, htmr, hbit, -⟩ := hdue
  obtain ⟨hload, hruns⟩ := h.load hlegal htmr
  have hk : k % 8 = 7 := h.bitcnt.symm.trans (congrArg BitVec.toNat hbit)
  have hdiv : (k + 1) / 8 = k / 8 + 1 := by omega
  have hmod : (k + 1) % 8 = 0 := by omega
  refine ⟨h.params, h.syncWord, h.pol, h.locked, hload, hruns, hmore, hmod.symm, ?_, fun j hj => ?_, fun i hi => ?_, ?_, ?_⟩
  · rw [hdiv, ← h.idx]
    exact hnext
  · omega
  · refine (bufRead_byteStored t i).trans ?_
    rw [h.idx]
    split
    · rename_i hi'
      rw [hi', hbyte]
    · exact h.bytes i (by omega)
  · change (if k / 8 = 2 then frame.getD 2 0 else t.fr.len) = _
    rw [hdiv, h.len]
    by_cases h2 : k / 8 = 2
    · rw [if_pos h2, if_neg (by omega)]
    · rw [if_neg h2]
      exact if_congr (by omega) rfl rfl
  · refine State.CrcHeld.byteStoredLen h.crc hnext ?_
    split
    · rename_i h2
      exact .inr ⟨h.idx.trans h2, h.len.trans (if_pos (by omega))⟩
    · exact .inl rfl

/-- One tick of the run before the frame's last bit is taken. -/
theorem State.Reading.step (h : s.Reading frame T k t) (hlegal : s.params.Legal) (hfit : s.FrameFits frame)
    (hline : s.LineSends frame) (hnr : s.NoReset (s.params.offsetTicks + 8 * frame.length * s.params.bitTicks))
    (hT : T + 1 < s.params.offsetTicks + 8 * frame.length * s.params.bitTicks) :
    ∃ k' t', step t = .next t' ∧ s.Reading frame (T + 1) k' t' := by
  obtain ⟨hrst, -⟩ := hnr.pins h.inputs (Nat.lt_of_succ_lt hT)
  have hmore (htmr : t.fr.tmr = 1) : k + 1 < 8 * frame.length := by
    have htimer := h.timer
    have hone : t.fr.tmr.toNat = 1 := congrArg BitVec.toNat htmr
    exact Nat.lt_of_mul_lt_mul_right (a := s.params.bitTicks) (by omega)
  have hrx := h.rx_eq_pol_iff hline hnr (Nat.lt_of_succ_lt hT)
  have hroom : t.BufRoom := fun _ => by
    have hroom := hfit.room
    have hin := h.inFrame
    rw [h.params, h.idx]
    omega
  obtain ⟨u, hu⟩ := tickStep_goes_on hroom
  obtain ⟨t', ht'⟩ := step_goes_on hu
  obtain ⟨u', a, r, hu', rfl⟩ := step_of_busy (by simp [h.locked]) hrst ht'
  suffices hreader : ∃ k', s.ReaderAt frame (T + 1) k' u' by
    obtain ⟨k', hreader⟩ := hreader
    exact ⟨k', _, ht', hreader.withPorts ((tickFrame_tickStep hu').inputs.trans h.inputs) a r⟩
  cases lockedTick_of_tickStep h.locked hu' with
  | wait htmr => exact ⟨k, h.wait htmr⟩
  | sample htmr hbit => exact ⟨k + 1, h.sample hlegal htmr hbit (hrx htmr) (hmore htmr)⟩
  | byte hdue =>
    obtain ⟨-, htmr, hbit, -⟩ := id hdue
    have hin := hmore htmr
    have hk : k % 8 = 7 := h.bitcnt.symm.trans (congrArg BitVec.toNat hbit)
    have hbyte := h.sampled_byte (hrx htmr) hk
    rw [h.byteGate_passes hfit hbyte (by omega)]
    exact ⟨k + 1, h.byte hlegal hdue hbyte hin⟩

end Tick

/-! ## The run up to the last bit -/

theorem exists_reading {s : State} {frame : List Byte} (hlegal : s.params.Legal) (hlock : s.JustLocked)
    (hfit : s.FrameFits frame) (hline : s.LineSends frame)
    (hnr : s.NoReset (s.params.offsetTicks + 8 * frame.length * s.params.bitTicks)) (T : Nat)
    (hT : T < s.params.offsetTicks + 8 * frame.length * s.params.bitTicks) :
    ∃ k t, core.run T s = .next t ∧ s.Reading frame T k t := by
  induction T with
  | zero => exact ⟨0, s, rfl, hlock.reading hlegal hfit.nonempty⟩
  | succ T ih =>
    obtain ⟨k, t, hrun, hread⟩ := ih (Nat.lt_of_succ_lt hT)
    obtain ⟨k', t', hstep, hread'⟩ := hread.step hlegal hfit hline hnr hT
    exact ⟨k', t', (core_run_add hrun 1).trans (core_run_succ hstep 0), hread'⟩

/-- The frame's last bit: the run comes to the tick that completes its last byte, and the gate of that byte decides. -/
theorem run_to_last_byte {s : State} {frame : List Byte} (hlegal : s.params.Legal) (hlock : s.JustLocked)
    (hfit : s.FrameFits frame) (hline : s.LineSends frame)
    (hnr : s.NoReset (s.params.offsetTicks + 8 * frame.length * s.params.bitTicks)) :
    ∃ T k t a r, s.Reading frame T k t ∧ k / 8 + 1 = frame.length ∧ t.ByteDue ∧ t.sampled = frame.getD (k / 8) 0 ∧
      core.run (s.params.offsetTicks + 8 * frame.length * s.params.bitTicks) s =
        .next (((byteGate t t.fr.idx.toNat t.sampled t.byteStored).withAux a).withRdata r).advance := by
  have hpos : 8 ≤ s.params.bitTicks := by
    obtain ⟨hbit, -⟩ := hlegal
    exact hbit
  have hne := hfit.nonempty
  have hticks : 0 < 8 * frame.length * s.params.bitTicks := Nat.mul_pos (by omega) (by omega)
  obtain ⟨T, hT⟩ : ∃ T, s.params.offsetTicks + 8 * frame.length * s.params.bitTicks = T + 1 :=
    ⟨s.params.offsetTicks + 8 * frame.length * s.params.bitTicks - 1, by omega⟩
  obtain ⟨k, t, hrun, hread⟩ := exists_reading hlegal hlock hfit hline hnr T (by omega)
  have htimer := hread.timer
  have hin := hread.inFrame
  have hruns := hread.timerRuns
  have hlast : 8 * frame.length = k + 1 := by
    refine Nat.le_antisymm (Nat.le_of_mul_le_mul_right (c := s.params.bitTicks) ?_ (by omega)) (by omega)
    omega
  have htmr : t.fr.tmr = 1 := by
    rw [hlast] at hT
    have hone : t.fr.tmr.toNat = 1 := by omega
    exact BitVec.eq_of_toNat_eq hone
  have hk : k % 8 = 7 := by omega
  have hdue := hread.byteDue hfit htmr hk
  have hbyte := hread.sampled_byte (hread.rx_eq_pol_iff hline hnr (by omega) htmr) hk
  obtain ⟨hrst, -⟩ := hnr.pins hread.inputs (by omega)
  have htick := tickStep_byteDue hdue
  obtain ⟨t', ht'⟩ := step_goes_on htick
  obtain ⟨u, a, r, hu, rfl⟩ := step_of_busy (by simp [hread.locked]) hrst ht'
  rw [htick] at hu
  cases hu
  refine ⟨T, k, t, a, r, hread, by omega, hdue, hbyte, ?_⟩
  rw [hT]
  exact (core_run_add hrun 1).trans (core_run_succ ht' 0)

end Sys2Proof.Machine
end

section
/-! What the gate of a frame's last byte leaves, `8·n` samples after lock (R93 to R97): the sync gate, the length gate, and the
end of a complete frame. -/

namespace Sys2Proof.Machine

/-- Settles O56: the frame is the two bytes, so its last byte is that of the sync gate. -/
theorem wrongSyncWordAborts : Obligations.WrongSyncWordAborts := by
  intro s b0 b1 hlegal hlock hword hline hnr
  have hcap : s.params.cap = s.params.maxDataLen + 5 := rfl
  have htwo : [b0, b1].length = 2 := rfl
  have hfit : s.FrameFits [b0, b1] :=
    ⟨by omega, by omega, fun h => absurd h (by omega), fun h => absurd h (by omega)⟩
  obtain ⟨T, k, t, a, r, hread, hk, hdue, hbyte, hrun⟩ := run_to_last_byte hlegal hlock hfit hline hnr
  have hk1 : k / 8 = 1 := by omega
  have hidx : t.fr.idx.toNat = 1 := hread.idx.trans hk1
  have hb0 : bufRead t 0 = b0 := hread.bytes 0 (by omega)
  have hb1 : t.sampled = b1 := by
    rw [hbyte, hk1]
    rfl
  have hfail : ¬ (bufRead t 0).toNat * 256 + t.sampled.toNat = t.syncWord.toNat := by
    rw [← append_eq_iff_toNat, hb0, hb1, hread.syncWord]
    exact hword
  have hstored (j : Nat) := bufRead_byteStored t j
  rw [hidx] at hrun hstored
  rw [byteGate_sync, if_neg hfail] at hrun
  refine ⟨_, hrun, rfl, rfl, rfl, rfl, ?_, ?_, ?_⟩
  · exact BitVec.eq_of_toNat_eq ((hdue.idx_succ (hread.params ▸ hlegal)).trans (congrArg (· + 1) hidx))
  · exact (hstored 0).trans hb0
  · exact (hstored 1).trans hb1

/-- Settles O57: the frame is the three bytes, so its last byte is that of the length gate, and the sync gate before it lets the
attempt go on. -/
theorem oversizedLengthAborts : Obligations.OversizedLengthAborts := by
  intro s b0 b1 n hlegal hlock hword hlong hline hnr
  have hcap : s.params.cap = s.params.maxDataLen + 5 := rfl
  have hthree : [b0, b1, n].length = 3 := rfl
  have hfit : s.FrameFits [b0, b1, n] := ⟨by omega, by omega, fun _ => hword, fun h => absurd h (by omega)⟩
  obtain ⟨T, k, t, a, r, hread, hk, hdue, hbyte, hrun⟩ := run_to_last_byte hlegal hlock hfit hline hnr
  have hk2 : k / 8 = 2 := by omega
  have hidx : t.fr.idx.toNat = 2 := hread.idx.trans hk2
  have hlen : t.sampled = n := by
    rw [hbyte, hk2]
    rfl
  have hfail : ¬ t.sampled.toNat ≤ t.params.maxDataLen := by
    rw [hlen, hread.params]
    exact Nat.not_le.2 hlong
  rw [hidx, byteGate_len, if_neg hfail] at hrun
  refine ⟨_, hrun, rfl, rfl, rfl, rfl, ?_, hlen⟩
  exact BitVec.eq_of_toNat_eq ((hdue.idx_succ (hread.params ▸ hlegal)).trans (congrArg (· + 1) hidx))

/-- The bytes read so far are those of the frame. -/
theorem State.ReaderAt.frameBytes {s t : State} {frame : List Byte} {T k n : Nat} (h : s.ReaderAt frame T k t)
    (hn : n ≤ k / 8) (hframe : n ≤ frame.length) : t.frameBytes n = frame.take n := by
  refine List.ext_getElem (by rw [frameBytes_length, List.length_take, Nat.min_eq_left hframe]) fun i hi hi' => ?_
  rw [frameBytes_length] at hi
  have hbyte := h.bytes i (by omega)
  rw [List.getD_eq_getElem _ _ (by omega)] at hbyte
  rw [List.getElem_take, ← hbyte]
  simp [State.frameBytes]

/-- A complete frame: sync word, length byte, payload, trailer (R31). -/
theorem frame_shape {s : State} {payload : List Byte} {hi lo c0 c1 : Byte} {body frame : List Byte}
    (hlegal : s.params.Legal) (hfits : payload.length ≤ s.params.maxDataLen) (hword : hi ++ lo = s.syncWord)
    (hbody : body = hi :: lo :: BitVec.ofNat 8 payload.length :: payload) (hframe : frame = body ++ [c0, c1]) :
    s.FrameFits frame ∧ body.length = payload.length + 3 ∧ frame.length = payload.length + 5 ∧
      (frame.getD 2 0).toNat = payload.length ∧ frame.getD (payload.length + 3) 0 = c0 ∧
      frame.getD (payload.length + 4) 0 = c1 ∧ frame.take (payload.length + 3) = body := by
  obtain ⟨-, -, -, -, hmax, -⟩ := hlegal
  have hbodylen : body.length = payload.length + 3 := by rw [hbody]; rfl
  have hlength : frame.length = payload.length + 5 := by rw [hframe, List.length_append, hbodylen]; rfl
  have hlen : (frame.getD 2 0).toNat = payload.length := by
    rw [hframe, hbody]
    exact Nat.mod_eq_of_lt (by omega)
  have hcap : s.params.cap = s.params.maxDataLen + 5 := rfl
  refine ⟨⟨by omega, by omega, fun _ => ?_, fun _ => by omega⟩, hbodylen, hlength, hlen, ?_, ?_, ?_⟩
  · rw [hframe, hbody]
    exact hword
  · rw [hframe, ← hbodylen, List.getD_append_right _ _ _ _ (Nat.le_refl _), Nat.sub_self]
    rfl
  · rw [hframe, List.getD_append_right _ _ _ _ (by omega), hbodylen, show payload.length + 4 - (payload.length + 3) = 1 by omega]
    rfl
  · rw [hframe, ← hbodylen, List.take_left']
    rfl

/-- Settles O55: the frame's last byte is byte `LEN + 4`, so its gate is FRAME_END, and the running CRC is that of the bytes
before the trailer. -/
theorem frameIsReceivedAndChecked : Obligations.FrameIsReceivedAndChecked := by
  intro s payload hi lo c0 c1 body frame hlegal hlock hfits hword hbody hframe hline hnr
  obtain ⟨hfit, hbodylen, hlength, hlen, hc0, hc1, htake⟩ := frame_shape hlegal hfits hword hbody hframe
  obtain ⟨T, k, t, a, r, hread, hk, hdue, hbyte, hrun⟩ := run_to_last_byte hlegal hlock hfit hline hnr
  have hk4 : k / 8 = payload.length + 4 := by omega
  have hidx : t.fr.idx.toNat = payload.length + 4 := hread.idx.trans hk4
  have htlen : t.fr.len.toNat = payload.length := by rw [hread.len, if_neg (by omega), hlen]
  have hcrc : crcFinal t.fr.crc = crc16 body := by
    have hheld := hread.crc
    rw [State.CrcHeld, hidx, htlen, Nat.min_eq_right (by omega), hread.frameBytes (by omega) (by omega), htake] at hheld
    rw [hheld, crc16]
  have htrailer : bufRead t (t.fr.len.toNat + 3) ++ t.sampled = (c0 ++ c1 : Word) := by
    rw [htlen, hread.bytes _ (by omega), hc0, hbyte, hk4, hc1]
  have hstored (j : Nat) := bufRead_byteStored t j
  rw [byteGate_frameEnd (by omega) (by omega), frameEnd, hcrc, htrailer] at hrun
  refine ⟨_, hrun, rfl, rfl, ?_, rfl, rfl, rfl, fun i hlt => ?_⟩
  · exact (frameCount_toNat _).trans (congrArg (· + 5) htlen)
  · refine (congrArg some (hstored i)).trans ?_
    rw [hread.idx, List.getElem?_eq_getElem hlt, ← List.getD_eq_getElem frame 0 hlt]
    split
    · rename_i hlast
      rw [hbyte, hlast]
    · rw [hread.bytes i (by omega)]

end Sys2Proof.Machine
end
